-- ==== Sys2Proof/Word.lean ====
section
/-! DEFINITION. Bytes, command words and sense codes (spec 00_scope.md R9), and the two orders in which
four bytes can stand in a word. -/

namespace Sys2Proof

/-- A byte is 8 bits (R9). -/
abbrev Byte := BitVec 8

/-- A word is 32 bits (R9): what the receive pipeline buffers and what the host takes. -/
abbrev Word := BitVec 32

/-- A sense code is a 24-bit value (R21, R171). -/
abbrev Sense := BitVec 24

/-- Where the first byte of four stands in a 32-bit value: in bits [7:0] (`little`) or in bits
[31:24] (`big`). Two parameters have this type: `WORD_PACK` (P16) and the order of the header fields of
a wrapped executable (GK3). -/
inductive ByteOrder where
  | little
  | big
deriving DecidableEq, Repr

end Sys2Proof
end

