-- ==== Sys2Proof/Config.lean ====
section
/-! DEFINITION. The parameters of spec 00_scope.md R6 (P1 to P20) and the free values.

`Constants` holds the parameters to which the spec gives a value, sourced (but unaudited) or decided;
`Params` holds those the spec leaves OPEN. A machine carries its `Config` as plain data in its state, so a
statement about every state is a statement about every choice of parameters (log 1). P1 `IMG_BASE_ADDR`
and P3 `IMG_LEN` are computed from these (Machine/Media.lean); P4 `IMG` and P7 `HDR` are bytes of the flash;
P5 `MEDIA` is the Media Resolver's result. -/

namespace Sys2Proof

/-- The parameters R6 gives a value. The values stand as the fields' defaults: `({} : Constants)`
is the document's choice of all of them. -/
structure Constants where
  /-- P8 `DISC_MAGIC`, in increasing address order (sourced, unaudited: log 33). -/
  discMagic : List Byte := [0x3D, 0x9F, 0x33, 0xC2]
  /-- P8 `MAGIC_OFF`, the magic's offset in the payload (sourced, unaudited: log 33). -/
  magicOff : Nat := 0x1C
  /-- P9 `DOL_WIN_LO` (sourced, unaudited: log 33). -/
  dolWinLo : Nat := 0x80000000
  /-- P9 `DOL_WIN_HI`, exclusive by D31 (sourced, unaudited: log 33). -/
  dolWinHi : Nat := 0x81200000
  /-- The byte order of DOL header fields, big-endian by GK3 (PRESUMED: log 34). -/
  dolOrder : ByteOrder := .big
  /-- P12 `F4_SUB_INDEX`, 1 by D11 (log 15). -/
  f4SubIndex : Fin 12 := 1
  /-- P16 `WORD_PACK`, little-endian by D3 (log 7). -/
  wordPack : ByteOrder := .little
  /-- P20 `SENSE_NO_COMMAND` (R171; unaudited: log 50). -/
  senseNoCommand : Sense := 0x040800
  /-- P20 `SENSE_ILLEGAL` (R171; unaudited: log 50). -/
  senseIllegal : Sense := 0x052000
  /-- P20 `SENSE_LEAD_OUT` (R171; unaudited: log 50). -/
  senseLeadOut : Sense := 0x056300
deriving DecidableEq, Repr

/-- P14 `F4_ID_BLOCK`: the device-identity block is 4 or 32 bytes long (D14, log 17). -/
inductive IdBlock where
  | short (bytes : Vector Byte 4)
  | long (bytes : Vector Byte 32)
deriving DecidableEq, Repr

/-- The parameters R6 leaves OPEN. -/
structure Params where
  /-- P6 `PAYLOAD_ADDR`. -/
  payloadAddr : Nat
  /-- P7 `HDR_SIZE`. -/
  hdrSize : Nat
  /-- P2 `FLASH_END`, exclusive. -/
  flashEnd : Nat
  /-- P10 `DOL_MIN_SIZE`. -/
  dolMinSize : Nat
  /-- P11 `INQUIRY_BLOCK`. -/
  inquiryBlock : Vector Byte 32
  /-- P13 `F4_SUB_IDENTITY`. -/
  f4SubIdentity : Byte
  /-- P13 `F4_SUB_UPDATE`. -/
  f4SubUpdate : Byte
  /-- P14 `F4_ID_BLOCK`. -/
  f4IdBlock : IdBlock
  /-- P15 `RX_DEPTH`, in words. -/
  rxDepth : Nat
  /-- P17 `ERR_CLEAR_ON_DIR_IN`. -/
  errClearOnDirIn : Bool
  /-- P18 `PT_HW_AVAILABLE`, consulted only at boot with no valid media (R208). -/
  ptHwAvailable : Bool
  /-- P19 `BUS_DATA_WIDTH`: unobservable at the event level (D1); nothing reads it (log 47). -/
  busDataWidth : Nat
deriving DecidableEq, Repr

/-- The constraints R6 puts on the OPEN parameters: `PAYLOAD_ADDR` and `HDR_SIZE` are multiples of 4 (so
`IMG_BASE_ADDR` is), the header lies below the payload and the payload inside addressable flash (so
`FLASH_END >= IMG_BASE_ADDR`), the two sub-opcodes differ, and `RX_DEPTH >= 3`. -/
abbrev Params.wf (p : Params) : Prop :=
  p.payloadAddr % 4 = 0 ∧ p.hdrSize % 4 = 0 ∧ p.hdrSize ≤ p.payloadAddr ∧ p.payloadAddr ≤ p.flashEnd ∧
    p.f4SubIdentity ≠ p.f4SubUpdate ∧ 3 ≤ p.rxDepth

/-- Every parameter of R6 the model takes as an argument. -/
structure Config extends Constants, Params
deriving DecidableEq, Repr

/-- Every parameter meets the "value / constraint" column of R6: the sourced and decided ones have the
document's values, the OPEN ones their constraints. -/
abbrev Config.wf (c : Config) : Prop :=
  c.toConstants = {} ∧ c.toParams.wf

/-- A choice of the OPEN parameters together with the proof that it meets their constraints. The defaults
only show that such a choice exists (Lean asks for one before `Config.openParams` may be declared); no
statement can see them. -/
structure ValidParams where
  params : Params :=
    { payloadAddr := 0, hdrSize := 0, flashEnd := 0, dolMinSize := 0, inquiryBlock := default,
      f4SubIdentity := 0, f4SubUpdate := 1, f4IdBlock := .short default, rxDepth := 3,
      errClearOnDirIn := false, ptHwAvailable := false, busDataWidth := 0 }
  valid : params.wf := by decide
deriving Inhabited

/-- The OPEN parameters of the chip: some values meeting their constraints, and nothing more is known of
them (log 1). -/
opaque Config.openParams : ValidParams

/-- The parameters of the machine that `State.reset` describes. -/
def Config.chip : Config :=
  { toConstants := {}, toParams := Config.openParams.params }

/-- FREE VALUE: the byte at a flash address that a state's `flash` does not list. The spec leaves the
contents of the flash OPEN (P4 `IMG`, P7 `HDR`; U15: any value, but fixed); log 32. -/
opaque Config.flashByte : Nat → Byte

/-- FREE VALUE: `draw keep : Bool` of R90, for the draw with this number. Whether the receive pipeline keeps
a word sent while the bus clock is masked is not in the source (R110, D23, U16); log 4. -/
opaque Config.keepWord : Nat → Bool

end Sys2Proof
end

