-- ==== Sys2Proof/Syntax.lean ====
section
/-! DEFINITION. The commands: one constructor per row of spec/opcode_table.json (30_encoding.md R77), in
the table's order, carrying the fields of its format (R71 to R73). Bytes no format defines are not part of a
command (R78; log 14). -/

namespace Sys2Proof

/-- One command as the dispatcher sees it. -/
inductive Instr where
  /-- ABSENT: no Command Block; `words` (0 to 2) command words had been captured (R80, R150). -/
  | absent (words : Nat)
  /-- INQUIRY, 0x12, CB-OP (R122). -/
  | inquiry
  /-- READ, 0xA8, CB-RW: `a` is the address field `A` in units of 4 bytes, `l` the length field `L` in bytes
  (R72, R140). -/
  | read (a l : BitVec 32)
  /-- SEEK, 0xAB, CB-RW: both fields are on the wire and neither is used (R72, R123). -/
  | seek (a l : BitVec 32)
  /-- REQUEST_ERROR, 0xE0, CB-OP (R152). -/
  | requestError
  /-- STOP_MOTOR, 0xE3, CB-OP (R124). -/
  | stopMotor
  /-- AUDIO_BUFFER_CONFIG, 0xE4, CB-OP (R125). -/
  | audioBufferConfig
  /-- VENDOR_IDENTITY, 0xF4 with `cmd[1] = F4_SUB_IDENTITY`, CB-VND (R161). -/
  | vendorIdentity
  /-- VENDOR_UPDATE, 0xF4 with `cmd[1] = F4_SUB_UPDATE`, CB-VND (R162). -/
  | vendorUpdate
  /-- VENDOR_OTHER, 0xF4 with any other `cmd[1]`, here `sub` (R163). -/
  | vendorOther (sub : Byte)
  /-- UNKNOWN: byte 0, here `op`, is none of the seven opcodes (R79, R151). -/
  | unknown (op : Byte)
deriving DecidableEq, Repr

/-- The row's name in spec/opcode_table.json. -/
def Instr.mnemonic : Instr → String
  | .absent _ => "ABSENT"
  | .inquiry => "INQUIRY"
  | .read _ _ => "READ"
  | .seek _ _ => "SEEK"
  | .requestError => "REQUEST_ERROR"
  | .stopMotor => "STOP_MOTOR"
  | .audioBufferConfig => "AUDIO_BUFFER_CONFIG"
  | .vendorIdentity => "VENDOR_IDENTITY"
  | .vendorUpdate => "VENDOR_UPDATE"
  | .vendorOther _ => "VENDOR_OTHER"
  | .unknown _ => "UNKNOWN"

/-- How many 32-bit words the command occupies on the bus: three, but for ABSENT (R70, R80). -/
def Instr.wordCount : Instr → Nat
  | .absent n => n
  | .inquiry => 3
  | .read _ _ => 3
  | .seek _ _ => 3
  | .requestError => 3
  | .stopMotor => 3
  | .audioBufferConfig => 3
  | .vendorIdentity => 3
  | .vendorUpdate => 3
  | .vendorOther _ => 3
  | .unknown _ => 3

end Sys2Proof
end

