-- ==== Sys2Proof/WellFormed.lean ====
section
/-! DEFINITION. Which terms of `Instr` a transaction can carry. -/

namespace Sys2Proof

/-- The seven values of byte 0 that have a row of their own (30_encoding.md R77). -/
def knownOpcodes : List Byte := [0x12, 0xA8, 0xAB, 0xE0, 0xE3, 0xE4, 0xF4]

/-- A command is well formed when it is what its row says: ABSENT holds fewer than three words (R80), the
sub-opcode of VENDOR_OTHER is neither defined one (R82), and the opcode of UNKNOWN is not in the map (R79).
Every other command is well formed at every value of its fields. -/
def Instr.wf (c : Config) : Instr → Bool
  | .absent n => decide (n < 3)
  | .vendorOther sub => sub != c.f4SubIdentity && sub != c.f4SubUpdate
  | .unknown op => !knownOpcodes.contains op
  | .inquiry => true
  | .read _ _ => true
  | .seek _ _ => true
  | .requestError => true
  | .stopMotor => true
  | .audioBufferConfig => true
  | .vendorIdentity => true
  | .vendorUpdate => true

end Sys2Proof
end

