-- ==== Sys2Proof/Decode.lean ====
section
/-! DEFINITION. From captured words to a command and back (20_memory.md R53 to R55, 30_encoding.md,
40_transport.md R92). Decoding is total: no transaction is rejected, since ABSENT and UNKNOWN take what
no other row does (R77, R79, R80). -/

namespace Sys2Proof

/-! ## Bytes, words and Command Blocks -/

/-- `BE32(b0,b1,b2,b3)` of R9, as a 32-bit value. -/
def be32 (b0 b1 b2 b3 : Byte) : BitVec 32 :=
  BitVec.ofNat 32 (b0.toNat * 2 ^ 24 + b1.toNat * 2 ^ 16 + b2.toNat * 2 ^ 8 + b3.toNat)

/-- Byte `j` of `be32(v)` of R9: `j = 0` is the most significant one. -/
def be32Byte (v : BitVec 32) (j : Nat) : Byte := v.extractLsb' (8 * (3 - j)) 8

/-- Wire byte `j` of a word packed in the order `p`: for `WORD_PACK` little-endian (R55) the first wire byte
is bits [7:0]. -/
def Word.byte (p : ByteOrder) (w : Word) (j : Nat) : Byte :=
  match p with
  | .little => be32Byte w (3 - j)
  | .big => be32Byte w j

/-- The word that carries the four wire bytes `b0 b1 b2 b3` in the order `p` (R55). -/
def packWord (p : ByteOrder) (b0 b1 b2 b3 : Byte) : Word :=
  match p with
  | .little => be32 b3 b2 b1 b0
  | .big => be32 b0 b1 b2 b3

/-- A Command Block: twelve bytes in wire order (R70). -/
abbrev Block := Vector Byte 12

/-- The Command Block in three words (R92: `bytes(q[0]) ++ bytes(q[1]) ++ bytes(q[2])`). -/
def blockOfWords (p : ByteOrder) (w0 w1 w2 : Word) : Block :=
  #v[Word.byte p w0 0, Word.byte p w0 1, Word.byte p w0 2, Word.byte p w0 3,
    Word.byte p w1 0, Word.byte p w1 1, Word.byte p w1 2, Word.byte p w1 3,
    Word.byte p w2 0, Word.byte p w2 1, Word.byte p w2 2, Word.byte p w2 3]

/-- The three words that carry a Command Block (R55, R74). -/
def wordsOfBlock (p : ByteOrder) (b : Block) : List Word :=
  [packWord p b[0] b[1] b[2] b[3], packWord p b[4] b[5] b[6] b[7], packWord p b[8] b[9] b[10] b[11]]

/-- `assemble(q)` of R92: `none` is ABSENT; words beyond the third are not looked at (R81). -/
def assemble (c : Config) : List Word → Option Block
  | w0 :: w1 :: w2 :: _ => some (blockOfWords c.wordPack w0 w1 w2)
  | _ => none

/-! ## The decoder -/

/-- The address field `A` of format CB-RW: bytes 4 to 7, big-endian (R72, R74). -/
def Block.addressField (b : Block) : BitVec 32 := be32 b[4] b[5] b[6] b[7]

/-- The length field `L` of format CB-RW: bytes 8 to 11, big-endian (R72, R74). -/
def Block.lengthField (b : Block) : BitVec 32 := be32 b[8] b[9] b[10] b[11]

/-- The sub-dispatch of opcode 0xF4 on the byte `F4_SUB_INDEX` of the block (R73, R82, R160). -/
def decodeVendor (c : Config) (sub : Byte) : Instr :=
  if sub = c.f4SubIdentity then .vendorIdentity
  else if sub = c.f4SubUpdate then .vendorUpdate
  else .vendorOther sub

/-- The opcode map of R77 on a Command Block: dispatch on byte 0, and for 0xF4 on the sub-opcode (R78,
R120). -/
def decodeBlock (c : Config) (b : Block) : Instr :=
  if b[0] = 0x12 then .inquiry
  else if b[0] = 0xA8 then .read b.addressField b.lengthField
  else if b[0] = 0xAB then .seek b.addressField b.lengthField
  else if b[0] = 0xE0 then .requestError
  else if b[0] = 0xE3 then .stopMotor
  else if b[0] = 0xE4 then .audioBufferConfig
  else if b[0] = 0xF4 then decodeVendor c b[c.f4SubIndex]
  else .unknown b[0]

/-- The command in the words captured when the bus turns to outgoing (R91, R92): with fewer than three it
is ABSENT, whatever they hold (R80, R177). -/
def decode (c : Config) (q : List Word) : Instr :=
  match assemble c q with
  | none => .absent q.length
  | some b => decodeBlock c b

/-! ## The encoder (R84: bytes no format defines are written as 0) -/

/-- Format CB-OP with every byte after the opcode zero (R71). -/
def blockOp (op : Byte) : Block := #v[op, 0, 0, 0, 0, 0, 0, 0, 0, 0, 0, 0]

/-- Format CB-RW (R72). -/
def blockRw (op : Byte) (a l : BitVec 32) : Block :=
  #v[op, 0, 0, 0, be32Byte a 0, be32Byte a 1, be32Byte a 2, be32Byte a 3,
    be32Byte l 0, be32Byte l 1, be32Byte l 2, be32Byte l 3]

/-- Format CB-VND (R73): the sub-opcode stands at `F4_SUB_INDEX`. -/
def blockVnd (c : Config) (sub : Byte) : Block := (blockOp 0xF4).set c.f4SubIndex sub

/-- The Command Block of a command; ABSENT has none. -/
def encodeBlock (c : Config) : Instr → Option Block
  | .absent _ => none
  | .inquiry => some (blockOp 0x12)
  | .read a l => some (blockRw 0xA8 a l)
  | .seek a l => some (blockRw 0xAB a l)
  | .requestError => some (blockOp 0xE0)
  | .stopMotor => some (blockOp 0xE3)
  | .audioBufferConfig => some (blockOp 0xE4)
  | .vendorIdentity => some (blockVnd c c.f4SubIdentity)
  | .vendorUpdate => some (blockVnd c c.f4SubUpdate)
  | .vendorOther sub => some (blockVnd c sub)
  | .unknown op => some (blockOp op)

/-- The words the host sends for a command; ABSENT with `n` words is `SHORT n` of R84, `n` words of zeros. -/
def encode (c : Config) (i : Instr) : List Word :=
  match i, encodeBlock c i with
  | .absent n, _ => List.replicate n 0
  | _, some b => wordsOfBlock c.wordPack b
  | _, none => []

/-! ## The opcode table as data (R86) -/

/-- The 96-bit number of R86: byte 0 is the most significant. -/
def Block.bits (b : Block) : BitVec 96 :=
  BitVec.ofNat 96
    (b[0].toNat * 2 ^ 88 + b[1].toNat * 2 ^ 80 + b[2].toNat * 2 ^ 72 + b[3].toNat * 2 ^ 64 +
      b[4].toNat * 2 ^ 56 + b[5].toNat * 2 ^ 48 + b[6].toNat * 2 ^ 40 + b[7].toNat * 2 ^ 32 +
      b[8].toNat * 2 ^ 24 + b[9].toNat * 2 ^ 16 + b[10].toNat * 2 ^ 8 + b[11].toNat)

/-- What a row's `sub` entry asks of the sub-opcode byte (R86). -/
inductive SubEntry where
  /-- The row has no `sub` entry, or one whose `equals` is null. -/
  | any
  /-- `equals` names `F4_SUB_IDENTITY`. -/
  | identity
  /-- `equals` names `F4_SUB_UPDATE`. -/
  | update
deriving DecidableEq, Repr

/-- A row of spec/opcode_table.json that has a byte pattern. -/
structure TableRow where
  mnemonic : String
  pattern : BitVec 96
  mask : BitVec 96
  sub : SubEntry
deriving DecidableEq, Repr

/-- The rows with a byte pattern, in file order; the first that selects a block wins (R86). -/
def opcodeTable : List TableRow :=
  [{ mnemonic := "INQUIRY", pattern := 0x120000000000000000000000, mask := 0xFF0000000000000000000000, sub := .any },
   { mnemonic := "READ", pattern := 0xA80000000000000000000000, mask := 0xFF0000000000000000000000, sub := .any },
   { mnemonic := "SEEK", pattern := 0xAB0000000000000000000000, mask := 0xFF0000000000000000000000, sub := .any },
   { mnemonic := "REQUEST_ERROR", pattern := 0xE00000000000000000000000, mask := 0xFF0000000000000000000000, sub := .any },
   { mnemonic := "STOP_MOTOR", pattern := 0xE30000000000000000000000, mask := 0xFF0000000000000000000000, sub := .any },
   { mnemonic := "AUDIO_BUFFER_CONFIG", pattern := 0xE40000000000000000000000, mask := 0xFF0000000000000000000000, sub := .any },
   { mnemonic := "VENDOR_IDENTITY", pattern := 0xF40000000000000000000000, mask := 0xFF0000000000000000000000, sub := .identity },
   { mnemonic := "VENDOR_UPDATE", pattern := 0xF40000000000000000000000, mask := 0xFF0000000000000000000000, sub := .update },
   { mnemonic := "VENDOR_OTHER", pattern := 0xF40000000000000000000000, mask := 0xFF0000000000000000000000, sub := .any },
   { mnemonic := "UNKNOWN", pattern := 0, mask := 0, sub := .any }]

/-- A row selects a block when `c & mask = match` and its `sub` entry, if any, is met (R86). -/
def TableRow.selects (c : Config) (b : Block) (r : TableRow) : Bool :=
  b.bits &&& r.mask == r.pattern &&
    match r.sub with
    | .any => true
    | .identity => b[c.f4SubIndex] == c.f4SubIdentity
    | .update => b[c.f4SubIndex] == c.f4SubUpdate

/-- The mnemonic of the first row of the table that selects a block (R86). -/
def tableMnemonic (c : Config) (b : Block) : Option String :=
  (opcodeTable.find? (TableRow.selects c b)).map TableRow.mnemonic

/-! ## The table's words, for the host -/

/-- Byte `k` of an instruction of `nbits` bits whose bits are `w`, numbered as the table numbers them:
byte 0 is the most significant (R86). A byte the table gives no bits is 0 (log 41). -/
def tableByte (nbits w k : Nat) : Byte :=
  if 8 * (k + 1) ≤ nbits then BitVec.ofNat 8 (w / 2 ^ (nbits - 8 * (k + 1))) else 0

/-- The command words of such an instruction, in the order the receive pipeline holds them. A row of no bits is
ABSENT's: no word at all. -/
def tableWords (p : ByteOrder) (nbits w : Nat) : List Word :=
  if nbits = 0 then []
  else
    wordsOfBlock p
      #v[tableByte nbits w 0, tableByte nbits w 1, tableByte nbits w 2, tableByte nbits w 3,
        tableByte nbits w 4, tableByte nbits w 5, tableByte nbits w 6, tableByte nbits w 7,
        tableByte nbits w 8, tableByte nbits w 9, tableByte nbits w 10, tableByte nbits w 11]

/-- The command this decoder reads from such an instruction, under the chip's parameters. It never refuses
one; a block of opcode 0xF4 decodes by the OPEN sub-opcode values, which Lean cannot evaluate. -/
def decodeTableWord (nbits w : Nat) : Option Instr :=
  some (decode Config.chip (tableWords Config.chip.wordPack nbits w))

end Sys2Proof
end

