-- ==== Sys2Proof/Machine/Memory.lean ====
section
/-! DEFINITION. The flash: the one memory the block reads (20_memory.md R50 to R52). A list of
(address, byte) pairs in one canonical form; an address it does not list holds the free byte
`Config.flashByte` (log 32). The block writes no memory (R51): `Memory.write` is how a flash is put together
from outside, and no transition uses it. -/

namespace Sys2Proof.Machine

/-- The listed bytes of the flash, by physical address. -/
abbrev Memory := List Host.Cell

/-- The byte at a physical address. -/
def Memory.read : Memory → Nat → Byte
  | [], a => Config.flashByte a
  | (b, v) :: m, a => if a = b then v else Memory.read m a

/-- Put a byte at a physical address, keeping the canonical form. -/
def Memory.write : Memory → Nat → Byte → Memory
  | [], a, v => if v = Config.flashByte a then [] else [(a, v)]
  | (b, w) :: m, a, v =>
    if a < b then (if v = Config.flashByte a then (b, w) :: m else (a, v) :: (b, w) :: m)
    else if a = b then (if v = Config.flashByte a then m else (a, v) :: m)
    else (b, w) :: Memory.write m a v

/-- The canonical form: addresses strictly rising, and no entry equal to what its address reads as unlisted.
Equal flashes are then equal lists. -/
abbrev Memory.wf (m : Memory) : Prop :=
  m.Pairwise (fun x y => x.1 < y.1) ∧ ∀ x ∈ m, x.2 ≠ Config.flashByte x.1

/-- The `n` bytes from physical address `a` up, in increasing order. -/
def Memory.slice (m : Memory) (a n : Nat) : List Byte :=
  (List.range n).map fun k => Memory.read m (a + k)

end Sys2Proof.Machine
end

