-- ==== Sys2Proof/Machine/Media.lean ====
section
/-! DEFINITION. The Media Resolver (70_reset_and_hazards.md R203 to R207), run once at boot over the flash,
and the image geometry it yields. -/

namespace Sys2Proof.Machine

/-- P5 `MEDIA`: the Media Resolver's result. -/
inductive Media where
  | raw
  | wrapped
  | none
deriving DecidableEq, Repr

/-- `P[i]` of R203: the flash byte at `PAYLOAD_ADDR + i`. -/
def payloadByte (c : Config) (m : Memory) (i : Nat) : Byte := m.read (c.payloadAddr + i)

/-- Step 1 (R203): the payload holds the disc-image magic at `MAGIC_OFF`. -/
def hasDiscMagic (c : Config) (m : Memory) : Bool :=
  m.slice (c.payloadAddr + c.magicOff) c.discMagic.length == c.discMagic

/-- A segment of a DOL header (R204): file offset, load address and size. -/
structure Segment where
  off : Nat
  adr : Nat
  siz : Nat
deriving DecidableEq, Repr

/-- The fields of a DOL header that R204 looks at; `segments` has the 18 segments in order. -/
structure DolHeader where
  segments : List Segment
  bss : Nat
  entry : Nat
deriving DecidableEq, Repr

/-- The 32-bit header field at a payload offset, in the byte order of GK3. -/
def dolField (c : Config) (m : Memory) (i : Nat) : Nat :=
  match c.dolOrder with
  | .big => (be32 (payloadByte c m i) (payloadByte c m (i + 1)) (payloadByte c m (i + 2)) (payloadByte c m (i + 3))).toNat
  | .little => (be32 (payloadByte c m (i + 3)) (payloadByte c m (i + 2)) (payloadByte c m (i + 1)) (payloadByte c m i)).toNat

/-- `OFFk`, `ADRk`, `SIZk` of R204. -/
def dolSegment (c : Config) (m : Memory) (k : Nat) : Segment :=
  { off := dolField c m (4 * k), adr := dolField c m (0x48 + 4 * k), siz := dolField c m (0x90 + 4 * k) }

/-- The header at the payload's start (R204). -/
def dolHeader (c : Config) (m : Memory) : DolHeader :=
  { segments := (List.range 18).map (dolSegment c m), bss := dolField c m 0xD8, entry := dolField c m 0xE0 }

/-- `W(x)` of R204: the half-open window (D31). -/
def inDolWindow (c : Config) (x : Nat) : Bool := c.dolWinLo ≤ x && x < c.dolWinHi

/-- `SIZE` of R205: the maximum of file offset plus segment size, as naturals. -/
def DolHeader.size (h : DolHeader) : Nat := (h.segments.map fun g => g.off + g.siz).foldr max 0

/-- R204 (a): the entry point is misaligned. -/
def DolHeader.entryMisaligned (h : DolHeader) : Bool := h.entry % 4 != 0

/-- R204 (b): the entry point is outside the window. -/
def DolHeader.entryOutsideWindow (c : Config) (h : DolHeader) : Bool := !inDolWindow c h.entry

/-- R204 (c): some segment's load address is non-zero and outside the window (C6). -/
def DolHeader.segmentOutsideWindow (c : Config) (h : DolHeader) : Bool :=
  h.segments.any fun g => g.adr != 0 && !inDolWindow c g.adr

/-- R204 (d): the entry point is in none of the first 7 (text) segments, each a half-open range. -/
def DolHeader.entryOutsideText (h : DolHeader) : Bool :=
  !(h.segments.take 7).any fun g => g.adr ≤ h.entry && h.entry < g.adr + g.siz

/-- R204 (e): the uninitialised-data address is non-zero and below the window. -/
def DolHeader.bssBelowWindow (c : Config) (h : DolHeader) : Bool := h.bss != 0 && h.bss < c.dolWinLo

/-- R204 (f): the total size is below `DOL_MIN_SIZE`. -/
def DolHeader.tooSmall (c : Config) (h : DolHeader) : Bool := h.size < c.dolMinSize

/-- R204 (g): the image would extend past the end of addressable flash. -/
def DolHeader.pastFlashEnd (c : Config) (h : DolHeader) : Bool := c.flashEnd < c.payloadAddr + h.size

/-- The payload is rejected if any check of R204 rejects it. -/
def DolHeader.rejected (c : Config) (h : DolHeader) : Bool :=
  h.entryMisaligned || h.entryOutsideWindow c || h.segmentOutsideWindow c || h.entryOutsideText ||
    h.bssBelowWindow c || h.tooSmall c || h.pastFlashEnd c

/-- The Media Resolver: raw image, else validated executable behind the fixed header, else no valid media
(R203, R204, R206, R208). -/
def resolve (c : Config) (m : Memory) : Media :=
  if hasDiscMagic c m then .raw
  else if (dolHeader c m).rejected c then .none
  else .wrapped

/-- P1 `IMG_BASE_ADDR` (R60, R207). With no valid media there is no image (R191). -/
def imgBase (c : Config) : Media → Option Nat
  | .raw => some c.payloadAddr
  | .wrapped => some (c.payloadAddr - c.hdrSize)
  | .none => Option.none

/-- R208: with no valid media and no passthrough hardware the boot agent also flags a tamper/cover
condition to the status layer. That layer is outside the block; no state changes (log 46). -/
def bootFlagsTamper (c : Config) (m : Memory) : Bool :=
  resolve c m == .none && !c.ptHwAvailable

end Sys2Proof.Machine
end

