-- ==== Sys2Proof/Machine/State.lean ====
section
/-! DEFINITION. The state of the block (10_state.md R20), its value after power-on initialisation (R39,
70_reset_and_hazards.md R201, R208), and the names of the model's own stops. -/

namespace Sys2Proof.Machine

/-- `MODE` (R23). -/
inductive Mode where
  | emu
  | passthrough
  | update
deriving DecidableEq, Repr

/-- `DIR` (R24): host-to-drive or drive-to-host. -/
inductive Direction where
  | h2d
  | d2h
deriving DecidableEq, Repr

/-- `RST_SENSE` (R29). -/
inductive RstSense where
  | waitAssert
  | waitRelease
deriving DecidableEq, Repr

/-- `DIRPIPE` (R31). -/
inductive DirPipe where
  | normal
  | bypass
deriving DecidableEq, Repr

/-- The edge a break event carries (R97, R107). -/
inductive Edge where
  | rise
  | fall
deriving DecidableEq, Repr

/-- The events of R107. -/
inductive HostEvent where
  /-- `E_RXWORD(w)` (R90). -/
  | rxWord (w : Word)
  /-- `E_DIR_OUT` (R91). -/
  | dirOut
  /-- `E_DIR_IN` (R94). -/
  | dirIn
  /-- `E_TXWORD` (R99). -/
  | txWord
  /-- `E_RST_ASSERT` (R95). -/
  | rstAssert
  /-- `E_RST_RELEASE` (R96). -/
  | rstRelease
  /-- `E_BRK(edge)` (R97). -/
  | brk (edge : Edge)
deriving DecidableEq, Repr

/-- The state. The first nineteen fields are R20's record; `cfg`, `media` and `flash` are the parameters
of R40, which no transition writes (log 1); `script` and `draws` are the model's own (log 2, log 4). -/
structure State where
  /-- `LER`, the Last-Error Register (R21). -/
  ler : Sense
  /-- `EAL`, the Emulation-Active Latch (R22). -/
  eal : Bool
  /-- `MODE` (R23). -/
  mode : Mode
  /-- `DIR` (R24). -/
  dir : Direction
  /-- `RXQ`, oldest word first (R25). -/
  rxq : List Word
  /-- `TXREM`: response bytes not yet on the bus, in wire order (R26). -/
  txRem : List Byte
  /-- `TX_ACTIVE` (R26). -/
  txActive : Bool
  /-- `ERR`, the error-pin latch (R27). -/
  err : Bool
  /-- `CLKMASK` (R28). -/
  clkMask : Bool
  /-- `RST_SENSE` (R29). -/
  rstSense : RstSense
  /-- `IRQ_EN_RST` (R30). -/
  irqEnRst : Bool
  /-- `IRQ_EN_BRK` (R30). -/
  irqEnBrk : Bool
  /-- `IRQ_EN_DIR` (R30). -/
  irqEnDir : Bool
  /-- `PIPE_RX_EN` (R31). -/
  pipeRxEn : Bool
  /-- `PIPE_TX_EN` (R31). -/
  pipeTxEn : Bool
  /-- `PIPE_PT_EN` (R31). -/
  pipePtEn : Bool
  /-- `DIRPIPE` (R31). -/
  dirPipe : DirPipe
  /-- `LINE_OVR` (R31). -/
  lineOvr : Bool
  /-- `OUT`, ghost: the frames the host has received, oldest first (R41). -/
  out : List (List Byte)
  /-- The parameters of R6. -/
  cfg : Config
  /-- P5 `MEDIA`, resolved once at boot. -/
  media : Media
  /-- The flash behind the Disk Image (R50). -/
  flash : Memory
  /-- The host's moves still to come, oldest first (R84, R107). -/
  script : List HostEvent
  /-- How many draws of R90 have been made. -/
  draws : Nat
deriving DecidableEq, Repr

/-- Why the block is stuck. Every one is SAFE: the model stops where the spec gives no step. -/
inductive Fault where
  /-- Raised by `step` in `MODE = PASSTHROUGH`: no event has a step, the bus is the real drive's (R103, U13).
  Safe. -/
  | passthrough
  /-- Raised by `step` in `MODE = UPDATE`: the run is over, the spec says nothing of any output (R103, R162,
  U12). Safe. -/
  | update
  /-- Raised by `onTxWord` when no word is left to take: the host waits (R100, D27). Safe. -/
  | txWait
  /-- Raised by `onTxWord` while the bus clock is masked: no word moves (R99, D24). Safe. -/
  | txMasked
  /-- Raised by an interrupt handler's event while its enable is 0: it has no handler step (R30, R103). Safe. -/
  | irqDisabled
  /-- Raised by `onTxWord` when the ghost `OUT` has no frame to append to; an invariant rules it out (R41).
  Safe. -/
  | noOpenFrame
deriving DecidableEq, Repr

/-- Why the model gives a move no meaning. Every one is SAFE: the model stops where the spec has no such move. -/
inductive Refusal where
  /-- An instruction with no meaning yet; raised by `exec`'s arms only (none is left). Safe. -/
  | notModelled (mnemonic : String)
  /-- Raised by `onRxWord`: a command word while `DIR = D2H` (R220 HA1, U14). Safe. -/
  | wordWhileOutgoing
  /-- Raised by `onTxWord`: a response word taken while `DIR = H2D` (R220 HA2, U14). Safe. -/
  | takeWhileIncoming
  /-- Raised by `onDirOut` and `onDirIn`: a change to the direction the bus already has (R105, R220 HA4, U14).
  Safe. -/
  | repeatedDirection
  /-- Raised by `onRstAssert` and `onRstRelease`: the phase the handler is not watching for (R95, R96, R220 HA4,
  U14). Safe. -/
  | resetPhase
  /-- Raised by `send`: a length or source address that is not a multiple of 4 (R98, D38, U18). Safe. -/
  | sendUnaligned
  /-- Raised by `send`: a frame is still in flight (R98, D38, U18). Safe. -/
  | sendBusy
  /-- Raised by `execRead` when no valid media was found; such a block never dispatches (R191, U11). Safe. -/
  | noMedia
deriving DecidableEq, Repr

/-- What a transition answers. -/
abbrev Result := Host.Outcome State Fault Refusal

/-- The power-on state for a given result of the Media Resolver: the `EMU` column of R39 (R201) when it found
an image, else the `PASSTHROUGH` column (R208). Elements R39 leaves unspecified take the first column's value
(log 21, log 22). -/
def State.powerOnWith (c : Config) (media : Media) (m : Memory) : State :=
  let emulate := media != .none
  { ler := 0
    eal := false
    mode := if emulate then .emu else .passthrough
    dir := .h2d
    rxq := []
    txRem := []
    txActive := false
    err := false
    clkMask := false
    rstSense := .waitAssert
    irqEnRst := emulate
    irqEnBrk := emulate
    irqEnDir := emulate
    pipeRxEn := emulate
    pipeTxEn := emulate
    pipePtEn := !emulate
    dirPipe := if emulate then .normal else .bypass
    lineOvr := emulate
    out := []
    cfg := c
    media := media
    flash := m
    script := []
    draws := 0 }

/-- The state after power-on initialisation over a given flash (R200, R202): the Media Resolver runs first. -/
def State.powerOn (c : Config) (m : Memory) : State := State.powerOnWith c (resolve c m) m

/-- The machine right after reset: the chip's parameters, and a flash with nothing listed. -/
def State.reset : State := State.powerOn Config.chip []

end Sys2Proof.Machine
end

