-- ==== Sys2Proof/Machine/Flags.lean ====
section
/-! DEFINITION. The two sticky one-bit status elements of 10_state.md R34: the error-pin latch `ERR` and the
Emulation-Active Latch `EAL`. The block has no condition codes. -/

namespace Sys2Proof.Machine

/-- `set_error()` (R101): assert the error pin. It sends nothing. -/
def State.setError (s : State) : State := { s with err := true }

/-- Release the error pin: at bus-reset assertion (R95), and at the change to incoming if
`ERR_CLEAR_ON_DIR_IN` (R94, R176). -/
def State.clearError (s : State) : State := { s with err := false }

/-- Mark emulation active (R140, R144). No transition clears the latch (R22). -/
def State.markEmulation (s : State) : State := { s with eal := true }

end Sys2Proof.Machine
end

