-- ==== Sys2Proof/Machine/Operands.lean ====
section
/-! DEFINITION. The operands of READ (30_encoding.md R75, R76; 42_read.md R141) and the response formats
(30_encoding.md R85). -/

namespace Sys2Proof.Machine

/-- The byte offset `off = A * 4` of R75, a natural number: nothing wraps (R141, D6). -/
def byteOffset (a : BitVec 32) : Nat := a.toNat * 4

/-- The masked length `Lm = L & 0xFFFFFFE0` of R76. -/
def maskedLength (l : BitVec 32) : Nat := (l &&& 0xFFFFFFE0#32).toNat

/-- P3 `IMG_LEN = FLASH_END - IMG_BASE_ADDR` (R52), for an image based at `base`. -/
def imgLen (c : Config) (base : Nat) : Nat := c.flashEnd - base

/-- RSP-Z4: the fixed 4-byte zero response. -/
def rspZero4 : List Byte := [0, 0, 0, 0]

/-- RSP-ERR4: a zero status byte, then the sense code big-endian (R54). -/
def rspErr4 (v : Sense) : List Byte := [0, v.extractLsb' 16 8, v.extractLsb' 8 8, v.extractLsb' 0 8]

/-- The bytes of a fixed block in index order (R54). -/
def blockBytes {n : Nat} (v : Vector Byte n) : List Byte := List.ofFn fun i : Fin n => v[i]

/-- RSP-INQ32: `INQUIRY_BLOCK[0..32)`. -/
def rspInq32 (c : Config) : List Byte := blockBytes c.inquiryBlock

/-- RSP-ID: `F4_ID_BLOCK`, 4 or 32 bytes. -/
def rspId (c : Config) : List Byte :=
  match c.f4IdBlock with
  | .short v => blockBytes v
  | .long v => blockBytes v

end Sys2Proof.Machine
end

