-- ==== Sys2Proof/Machine/Ops.lean ====
section
/-! DEFINITION. The named operations the commands and the event handlers share: the driver operations of
40_transport.md (R93, R98, R101, R102, R106), `raise DriveError` (60_exceptions.md R172) and the image read
(20_memory.md R50). There is no return from an error and nothing to restore (R175). -/

namespace Sys2Proof.Machine

/-- `raise DriveError(code)` (R172): what a failing command does. The error pin is asserted and the code
stored; nothing is sent and nothing else is saved or changed. -/
def State.raiseDriveError (code : Sense) (s : State) : State := { s.setError with ler := code }

/-- Where the bytes of a frame lie, as far as `send` looks (R57): a fixed response buffer, which lies at a
4-aligned address, or the flash at a physical address. -/
inductive Source where
  | buffer
  | flash (addr : Nat)
deriving DecidableEq, Repr

/-- The source address is a multiple of 4 (R57). -/
def Source.aligned : Source → Bool
  | .buffer => true
  | .flash addr => addr % 4 == 0

/-- `send(bytes)` (R98): arm the DMA channel with a frame. A length or source address that is not a multiple
of 4, or a frame still in flight, is refused (D38). A frame of no bytes leaves the send side idle (D9). -/
def send (src : Source) (bytes : List Byte) (s : State) : Result :=
  if bytes.length % 4 = 0 ∧ src.aligned = true then
    match s.txRem with
    | [] => .next { s with txRem := bytes, txActive := !bytes.isEmpty }
    | _ :: _ => .refused .sendBusy
  else .refused .sendUnaligned

/-- `send_zero4()` (R128). -/
def sendZero4 (s : State) : Result := send .buffer rspZero4 s

/-- `MemRead(off, n)` (R50) on the image based at `base`: the flash bytes from `base + off` up. -/
def memRead (s : State) (base off n : Nat) : List Byte := s.flash.slice (base + off) n

/-- `rx_reset()` (R93): empty the receive pipeline and rearm it; nothing else is touched. -/
def State.rxReset (s : State) : State := { s with rxq := [] }

/-- Abort the outgoing transfer: everything not yet on the bus is discarded and the send pipeline goes idle
(R94, R106, D25). -/
def State.abortFrame (s : State) : State := { s with txRem := [], txActive := false }

/-- `full_pipeline_reset()` (R106); re-synchronised means the direction is host-to-drive again (D19). -/
def State.fullPipelineReset (s : State) : State := { s.rxReset.abortFrame with dir := .h2d }

/-- `enable_passthrough()` (R102): one way, for the lifetime of the process. -/
def State.enablePassthrough (s : State) : State :=
  { s with
    irqEnRst := false
    irqEnBrk := false
    irqEnDir := false
    dirPipe := .bypass
    pipeRxEn := false
    pipeTxEn := false
    pipePtEn := true
    lineOvr := false
    mode := .passthrough }

/-- The dispatcher's `reset_entry()` (R126): hand the bus over if the latch is set, else nothing. -/
def State.resetEntry (s : State) : State := if s.eal then s.enablePassthrough else s

/-- The receive pipeline buffers a word if there is room, and drops it if not (R90, R81). -/
def State.bufferWord (w : Word) (s : State) : State :=
  if s.rxq.length < s.cfg.rxDepth then { s with rxq := s.rxq ++ [w] } else s

/-- The first two lines of the outgoing handler (R91): the direction turns and a new, empty frame opens. -/
def State.turnOutgoing (s : State) : State := { s with dir := .d2h, out := s.out ++ [[]] }

end Sys2Proof.Machine
end

