-- ==== Sys2Proof/Machine/ErrorState.lean ====
section
/-! DEFINITION. The two commands that always fail and the one that reads the error state
(43_error_commands.md). -/

namespace Sys2Proof.Machine

/-- ABSENT (R150): the captured words, however many, are not examined. -/
def execAbsent (_words : Nat) (s : State) : Result := .next (s.raiseDriveError s.cfg.senseNoCommand)

/-- UNKNOWN (R151). -/
def execUnknown (_op : Byte) (s : State) : Result := .next (s.raiseDriveError s.cfg.senseIllegal)

/-- REQUEST_ERROR (R152): the frame holds the register from before it is cleared. The error pin is not
touched (R154). -/
def execRequestError (s : State) : Result :=
  match send .buffer (rspErr4 s.ler) s with
  | .next t => .next { t with ler := 0 }
  | .fault f => .fault f
  | .refused r => .refused r

end Sys2Proof.Machine
end

