-- ==== Sys2Proof/Machine/FixedResponse.lean ====
section
/-! DEFINITION. The commands whose response is a fixed block (41_dispatch_fixed.md R122 to R125). -/

namespace Sys2Proof.Machine

/-- INQUIRY (R122): the fixed 32-byte drive-identity block. -/
def execInquiry (s : State) : Result := send .buffer (rspInq32 s.cfg) s

/-- SEEK (R123): four zero bytes; the address and the length are not used, whatever they are (C4). -/
def execSeek (_a _l : BitVec 32) (s : State) : Result := sendZero4 s

/-- STOP_MOTOR (R124): four zero bytes. -/
def execStopMotor (s : State) : Result := sendZero4 s

/-- AUDIO_BUFFER_CONFIG (R125): four zero bytes; no configuration is stored. -/
def execAudioBufferConfig (s : State) : Result := sendZero4 s

end Sys2Proof.Machine
end

