-- ==== Sys2Proof/Machine/Read.lean ====
section
/-! DEFINITION. READ, the boundary-checked read of the Disk Image (42_read.md). -/

namespace Sys2Proof.Machine

/-- The bound check of R142: the read fails exactly when `off + Lm > IMG_LEN`, on naturals. -/
def readFails (c : Config) (base : Nat) (a l : BitVec 32) : Bool :=
  imgLen c base < byteOffset a + maskedLength l

/-- READ (R140): mark emulation active first (R144), then the bound check; a read out of bounds raises the
lead-out error, one in bounds sends the slice straight from the flash (R145). -/
def execRead (a l : BitVec 32) (s : State) : Result :=
  match imgBase s.cfg s.media with
  | none => .refused .noMedia
  | some base =>
    let s1 := s.markEmulation
    if readFails s.cfg base a l then .next (s1.raiseDriveError s.cfg.senseLeadOut)
    else send (.flash (base + byteOffset a)) (memRead s1 base (byteOffset a) (maskedLength l)) s1

end Sys2Proof.Machine
end

