-- ==== Sys2Proof/Machine/Vendor.lean ====
section
/-! DEFINITION. The VENDOR commands, opcode 0xF4 (44_vendor.md). The sub-dispatch of R160 is the decoder's
(`decodeVendor`). -/

namespace Sys2Proof.Machine

/-- VENDOR_IDENTITY (R161): the device-identity block. -/
def execVendorIdentity (s : State) : Result := send .buffer (rspId s.cfg) s

/-- VENDOR_UPDATE (R162): trigger the firmware-update reboot. Nothing is sent; the mode is terminal. -/
def execVendorUpdate (s : State) : Result := .next { s with mode := .update }

/-- VENDOR_OTHER (R163, D13): treated as an unknown request. -/
def execVendorOther (_sub : Byte) (s : State) : Result := .next (s.raiseDriveError s.cfg.senseIllegal)

end Sys2Proof.Machine
end

