-- ==== Sys2Proof/Machine/Dispatch.lean ====
section
/-! DEFINITION. The dispatcher's `request` entry point on a decoded command (41_dispatch_fixed.md R120). The
event handler that calls it is in Machine/Transport.lean (log 3). -/

namespace Sys2Proof.Machine

def exec (i : Instr) (s : State) : Host.Outcome State Fault Refusal :=
  match i with
  | .absent n => Sys2Proof.Machine.execAbsent n s
  | .inquiry => Sys2Proof.Machine.execInquiry s
  | .read a l => Sys2Proof.Machine.execRead a l s
  | .seek a l => Sys2Proof.Machine.execSeek a l s
  | .requestError => Sys2Proof.Machine.execRequestError s
  | .stopMotor => Sys2Proof.Machine.execStopMotor s
  | .audioBufferConfig => Sys2Proof.Machine.execAudioBufferConfig s
  | .vendorIdentity => Sys2Proof.Machine.execVendorIdentity s
  | .vendorUpdate => Sys2Proof.Machine.execVendorUpdate s
  | .vendorOther sub => Sys2Proof.Machine.execVendorOther sub s
  | .unknown op => Sys2Proof.Machine.execUnknown op s

end Sys2Proof.Machine
end

