-- ==== Sys2Proof/Machine/Transport.lean ====
section
/-! DEFINITION. The bus protocol engine: one handler per event of 40_transport.md R107, each one atomic
transition (R104). A handler is given the state after the event has left the host's script. Where a rule's
guard does not hold the event has no step, and the handler says why by name (log 5). -/

namespace Sys2Proof.Machine

/-- `E_RXWORD(w)` (R90): while the clock is masked, a draw decides whether the word is kept (R110). -/
def onRxWord (w : Word) (s : State) : Result :=
  match s.dir with
  | .d2h => .refused .wordWhileOutgoing
  | .h2d =>
    if s.clkMask then
      let s1 := { s with draws := s.draws + 1 }
      .next (if Config.keepWord s.draws then s1.bufferWord w else s1)
    else .next (s.bufferWord w)

/-- The end of the outgoing handler (R91): the receive pipeline is reset, unless `request` did not return
(R162). -/
def State.afterRequest (s : State) : State :=
  match s.mode with
  | .update => s
  | .emu => s.rxReset
  | .passthrough => s.rxReset

/-- `E_DIR_OUT` (R91): turn, open a frame, assemble and dispatch the command, reset the receive pipeline. -/
def onDirOut (s : State) : Result :=
  if s.irqEnDir then
    match s.dir with
    | .d2h => .refused .repeatedDirection
    | .h2d =>
      match exec (decode s.cfg s.rxq) s.turnOutgoing with
      | .next t => .next t.afterRequest
      | .fault f => .fault f
      | .refused r => .refused r
  else .fault .irqDisabled

/-- `E_DIR_IN` (R94): the host reclaims the bus; the frame is aborted and the receive pipeline rearmed. -/
def onDirIn (s : State) : Result :=
  if s.irqEnDir then
    match s.dir with
    | .h2d => .refused .repeatedDirection
    | .d2h =>
      let s1 := { s.abortFrame.rxReset with dir := .h2d }
      .next (if s.cfg.errClearOnDirIn then s1.clearError else s1)
  else .fault .irqDisabled

/-- Append bytes to the last frame of `OUT` (R41); with no frame there is nothing to append to. -/
def appendToLast (bytes : List Byte) : List (List Byte) → Option (List (List Byte))
  | [] => none
  | [f] => some [f ++ bytes]
  | f :: fs => (appendToLast bytes fs).map (f :: ·)

/-- `E_TXWORD` (R99): the host takes the next four bytes of the frame. -/
def onTxWord (s : State) : Result :=
  match s.dir with
  | .h2d => .refused .takeWhileIncoming
  | .d2h =>
    if s.clkMask then .fault .txMasked
    else if s.txRem.length < 4 then .fault .txWait
    else
      match appendToLast (s.txRem.take 4) s.out with
      | none => .fault .noOpenFrame
      | some out =>
        .next { s with out := out, txRem := s.txRem.drop 4, txActive := !(s.txRem.drop 4).isEmpty }

/-- `E_RST_ASSERT` (R95): mask the clock, release the error pin, watch for release. The pipelines are not
touched. -/
def onRstAssert (s : State) : Result :=
  if s.irqEnRst then
    match s.rstSense with
    | .waitRelease => .refused .resetPhase
    | .waitAssert => .next { s.clearError with clkMask := true, rstSense := .waitRelease }
  else .fault .irqDisabled

/-- `E_RST_RELEASE` (R96): clear the pipelines, call the dispatcher's reset entry, un-mask the clock; the
last runs in passthrough too (D37). -/
def onRstRelease (s : State) : Result :=
  if s.irqEnRst then
    match s.rstSense with
    | .waitAssert => .refused .resetPhase
    | .waitRelease => .next { s.fullPipelineReset.resetEntry with clkMask := false, rstSense := .waitAssert }
  else .fault .irqDisabled

/-- `E_BRK(edge)` (R97): acknowledged; no state element changes, on either edge. -/
def onBrk (_edge : Edge) (s : State) : Result :=
  if s.irqEnBrk then .next s else .fault .irqDisabled

/-- The handler of each event of R107. -/
def handle (e : HostEvent) (s : State) : Result :=
  match e with
  | .rxWord w => onRxWord w s
  | .dirOut => onDirOut s
  | .dirIn => onDirIn s
  | .txWord => onTxWord s
  | .rstAssert => onRstAssert s
  | .rstRelease => onRstRelease s
  | .brk edge => onBrk edge s

/-- The next transition: outside `EMU` no event has a step (R103); with no event pending the foreground idle
loop runs, which does nothing the spec observes (R8, R190; log 6); else the host's next move is handled. -/
def transition (s : State) : Result :=
  match s.mode with
  | .passthrough => .fault .passthrough
  | .update => .fault .update
  | .emu =>
    match s.script with
    | [] => .next s
    | e :: rest => handle e { s with script := rest }

/-- The `EMU` side of R38 (d), with an image to serve: what a dispatched command needs of the modes. -/
def State.enterEmu (s : State) : State :=
  { s with
    mode := .emu
    irqEnRst := true
    irqEnBrk := true
    irqEnDir := true
    pipeRxEn := true
    pipeTxEn := true
    pipePtEn := false
    dirPipe := .normal
    lineOvr := true
    media := if s.media = .none then .raw else s.media }

/-- A transaction one move before its command is dispatched: the words are captured, no frame is in flight
and the bus turns to outgoing next (log 42). -/
def State.presentWords (q : List Word) (s : State) : State :=
  { s.enterEmu with
    dir := .h2d
    rxq := q
    txRem := []
    txActive := false
    script := .dirOut :: s.script }

end Sys2Proof.Machine
end

