-- ==== Sys2Proof/Machine/Step.lean ====
section
/-! DEFINITION. One step of the machine, and the host's way to place a command where the next step runs
it. -/

namespace Sys2Proof.Machine

/-- One step: the next transition of Machine/Transport.lean. -/
def step (s : State) : Host.Outcome State Fault Refusal := transition s

/-- The state with the instruction of `nbits` bits `w`, numbered as spec/opcode_table.json numbers them,
captured from the bus, so that the next step dispatches exactly it (log 42). -/
def State.withFetchWord (s : State) (nbits w : Nat) : State :=
  s.presentWords (tableWords s.cfg.wordPack nbits w)

end Sys2Proof.Machine
end

