-- ==== Sys2Proof/Safety.lean ====
section
/-! DEFINITION. The invariants of 10_state.md R38, the named premises of 70_reset_and_hazards.md R222 and R223,
and several steps in a row: the terms in which claims are stated. -/

namespace Sys2Proof.Machine

/-- The right side of R38 (d): the enables and pipelines of `EMU`. -/
abbrev State.emuSide (s : State) : Prop :=
  s.irqEnRst = true ∧ s.irqEnBrk = true ∧ s.irqEnDir = true ∧ s.pipeRxEn = true ∧ s.pipeTxEn = true ∧
    s.pipePtEn = false ∧ s.dirPipe = .normal ∧ s.lineOvr = true

/-- The right side of R38 (e): the enables and pipelines of `PASSTHROUGH`. -/
abbrev State.passthroughSide (s : State) : Prop :=
  s.irqEnRst = false ∧ s.irqEnBrk = false ∧ s.irqEnDir = false ∧ s.pipeRxEn = false ∧ s.pipeTxEn = false ∧
    s.pipePtEn = true ∧ s.dirPipe = .bypass ∧ s.lineOvr = false

/-- The invariants. (a) to (f), (h) and (i) are R38's clauses of the same letters, (d) outside `UPDATE`, of
whose enables the spec says nothing; (g) is about two states and stands as a claim of its own. The rest ties the
model's parameters to their constraints: the `EMU` mode has an image to serve (R191), a drive-to-host state has
a frame open (R91), and the flash keeps its canonical form. -/
structure State.Inv (s : State) : Prop where
  params : s.cfg.wf
  flashCanonical : s.flash.wf
  a : s.txActive = true ↔ s.txRem ≠ []
  b : s.txRem.length % 4 = 0
  c : s.rxq.length ≤ s.cfg.rxDepth
  d : s.mode ≠ .update → (s.mode = .emu ↔ s.emuSide)
  e : s.mode = .passthrough ↔ s.passthroughSide
  f : s.txRem ≠ [] → s.dir = .d2h
  h : s.ler = 0 ∨ s.ler = 0x040800 ∨ s.ler = 0x052000 ∨ s.ler = 0x056300
  i : s.mode = .emu → (s.clkMask = true ↔ s.rstSense = .waitRelease)
  image : s.mode = .emu → s.media ≠ .none
  frameOpen : s.dir = .d2h → s.out ≠ []

/-- The outcome of `n` steps, one after another, ending at the first stop. -/
def steps : Nat → State → Result
  | 0, s => .next s
  | n + 1, s =>
    match step s with
    | .next t => steps n t
    | .fault f => .fault f
    | .refused r => .refused r

/-- R222 (a): the run is over. -/
def State.RunOver (s : State) : Prop := s.mode = .passthrough ∨ s.mode = .update

/-- R222 (b), R223: idle between transactions. -/
structure State.Idle (s : State) : Prop where
  emu : s.mode = .emu
  incoming : s.dir = .h2d
  noWords : s.rxq = []
  noFrame : s.txRem = []
  clockOn : s.clkMask = false

/-- R223: no error is recorded and the pin is released. -/
def State.NoErrorPending (s : State) : Prop := s.ler = 0 ∧ s.err = false

/-- R223: no READ has been dispatched. -/
def State.Fresh (s : State) : Prop := s.eal = false

end Sys2Proof.Machine
end

