-- ==== Sys2Proof/Certificates/Slice0/Obligations.lean ====
section
/-! DEFINITION. The statements for the provers: what the commands, the events, the boot contract and the
whole machine do, in the words of the spec's rules. A statement about a state `s` holds for every choice of
parameters, since they stand in `s.cfg`. -/

open Sys2Proof Sys2Proof.Machine

/-! ## Encoding -/

/-- Decoding the words that encode a well-formed command gives it back, with every field at every value, under
every admissible choice of parameters (30_encoding.md sections 1, 2, 4 and 6). -/
def Obligations.DecodeUndoesEncode : Prop :=
  ∀ (c : Config) (i : Instr), c.wf → i.wf c = true → decode c (encode c i) = i

/-- Whatever words were captured, the command they decode to is well formed: ABSENT holds fewer than three words,
VENDOR_OTHER neither defined sub-opcode, UNKNOWN no known opcode (30_encoding.md sections 3 and 4). -/
def Obligations.DecodeYieldsWellFormed : Prop :=
  ∀ (c : Config) (q : List Word), (decode c q).wf c = true

/-- The decoder selects the row that the machine-readable table selects: the first, in file order, whose masked
pattern and sub-opcode entry the block meets (30_encoding.md section 8). -/
def Obligations.DecodeFollowsOpcodeTable : Prop :=
  ∀ (c : Config) (b : Block), tableMnemonic c b = some (decodeBlock c b).mnemonic

/-- Words of 95_test_vectors.md decode to the commands they stand for, whatever the OPEN parameters are. They rest on
the spec's decisions D3 for the packing of words (log 7), D4 for the clause with a fourth word (log 8), D10 for the
clauses with don't-care bytes that are not zero (log 14) and D11 for the sub-opcode's place (log 15). -/
def Obligations.SpecVectorsDecode : Prop :=
  ∀ p : Params,
    decode { toParams := p } [0x00000012, 0, 0] = .inquiry ∧
    decode { toParams := p } [0x000000A8, 0x01000000, 0x3F000000] = .read 1 0x3F ∧
    decode { toParams := p } [0x000000AB, 0xFFFFFFFF, 0] = .seek 0xFFFFFFFF 0 ∧
    decode { toParams := p } [0x000000E0, 0, 0] = .requestError ∧
    decode { toParams := p } [0x000000E3, 0, 0, 0x12121212] = .stopMotor ∧
    decode { toParams := p } [0x0A0001E4, 0, 0] = .audioBufferConfig ∧
    decode { toParams := p } [0x000000FF, 0, 0] = .unknown 0xFF ∧
    decode { toParams := p } [0x000000A8, 0] = .absent 2 ∧
    decode { toParams := p } [0x020100F4, 0, 0] = decodeVendor { toParams := p } 0x00 ∧
    (p.f4SubIdentity = 1 → decode { toParams := p } [0x000001F4, 0, 0] = .vendorIdentity)

/-- Only the oldest three words form the Command Block (30_encoding.md section 4; the spec's decision D4,
log 8). -/
def Obligations.ExcessWordsIgnored : Prop :=
  ∀ (c : Config) (w0 w1 w2 : Word) (rest : List Word),
    decode c (w0 :: w1 :: w2 :: rest) = decode c [w0, w1, w2]

/-- Byte `j` of word `i` is wire byte `4i + j`, first byte in bits [7:0], and the fields of format CB-RW are
assembled big-endian (30_encoding.md section 2; the packing is the spec's decision D3, log 7). -/
def Obligations.FieldsAssembleBigEndian : Prop :=
  ∀ (c : Config) (q : Vector Word 3) (rest : List Word), c.wf →
    ∃ b : Block, assemble c (q[0] :: q[1] :: q[2] :: rest) = some b ∧
      (∀ (i : Fin 3) (j : Fin 4), b[4 * i.val + j.val] = q[i].extractLsb' (8 * j.val) 8) ∧
      b.addressField.toNat = b[4].toNat * 2 ^ 24 + b[5].toNat * 2 ^ 16 + b[6].toNat * 2 ^ 8 + b[7].toNat ∧
      b.lengthField.toNat = b[8].toNat * 2 ^ 24 + b[9].toNat * 2 ^ 16 + b[10].toNat * 2 ^ 8 + b[11].toNat

/-- Two blocks that agree on byte 0, on the sub-opcode byte of a VENDOR command and on bytes 4 to 11 of a READ
have the same effect: every other byte is a don't-care (30_encoding.md section 3; the spec's decision D10,
log 14). -/
def Obligations.UnexaminedBytesChangeNothing : Prop :=
  ∀ (c : Config) (b b' : Block) (s : State), c.wf → b[0] = b'[0] → (b[0] = 0xF4 → b[1] = b'[1]) →
    (b[0] = 0xA8 → ∀ k : Fin 8, b[4 + k.val] = b'[4 + k.val]) →
    exec (decodeBlock c b) s = exec (decodeBlock c b') s

/-! ## Commands: result, frame and completion in one equation -/

/-- INQUIRY (41_dispatch_fixed.md): with no frame in flight it sends the 32 bytes of the identity block, whatever
they are, and changes nothing else; bytes 1 to 11 of its block are ignored. -/
def Obligations.InquirySendsIdentityBlock : Prop :=
  (∀ (c : Config) (b : Block), b[0] = 0x12 → decodeBlock c b = .inquiry) ∧
  ∀ s : State, s.txRem = [] →
    exec .inquiry s = .next { s with txRem := s.cfg.inquiryBlock.toList, txActive := true }

/-- SEEK (R123), STOP_MOTOR (R124) and AUDIO_BUFFER_CONFIG (R125): the fixed 4-byte zero response (R128) and
nothing else; SEEK uses neither of its fields. -/
def Obligations.ZeroResponseCommands : Prop :=
  (∀ (c : Config) (b : Block),
    (b[0] = 0xAB → decodeBlock c b = .seek (be32 b[4] b[5] b[6] b[7]) (be32 b[8] b[9] b[10] b[11])) ∧
    (b[0] = 0xE3 → decodeBlock c b = .stopMotor) ∧
    (b[0] = 0xE4 → decodeBlock c b = .audioBufferConfig)) ∧
  ∀ s : State, s.txRem = [] →
    (∀ a l : BitVec 32, exec (.seek a l) s = .next { s with txRem := [0, 0, 0, 0], txActive := true }) ∧
    exec .stopMotor s = .next { s with txRem := [0, 0, 0, 0], txActive := true } ∧
    exec .audioBufferConfig s = .next { s with txRem := [0, 0, 0, 0], txActive := true }

/-- REQUEST_ERROR (R152): the zero status byte and the register's three bytes, high byte first, as they were;
then the register is zero. -/
def Obligations.RequestErrorSendsAndClearsRegister : Prop :=
  (∀ (c : Config) (b : Block), b[0] = 0xE0 → decodeBlock c b = .requestError) ∧
  ∀ s : State, s.txRem = [] →
    exec .requestError s = .next { s with
      txRem := [0, s.ler.extractLsb' 16 8, s.ler.extractLsb' 8 8, s.ler.extractLsb' 0 8]
      txActive := true
      ler := 0 }

/-- ABSENT (R150): fewer than three captured words, whatever they are, raise 0x040800 and nothing is sent. -/
def Obligations.AbsentRaisesNoCommand : Prop :=
  (∀ (c : Config) (q : List Word), q.length < 3 → decode c q = .absent q.length) ∧
  ∀ (n : Nat) (s : State), s.cfg.wf → exec (.absent n) s = .next { s with err := true, ler := 0x040800 }

/-- UNKNOWN (R151): any other value of byte 0 raises 0x052000; nothing is sent and the latch is not touched. -/
def Obligations.UnknownRaisesIllegalRequest : Prop :=
  (∀ (c : Config) (b : Block), b[0] ∉ ([0x12, 0xA8, 0xAB, 0xE0, 0xE3, 0xE4, 0xF4] : List Byte) →
    decodeBlock c b = .unknown b[0]) ∧
  ∀ (op : Byte) (s : State), s.cfg.wf → exec (.unknown op) s = .next { s with err := true, ler := 0x052000 }

/-- VENDOR_IDENTITY (44_vendor.md): sends the device-identity block. That the sub-opcode is byte 1 and that the
block is 4 or 32 bytes long are the spec's decisions D11 and D14 (log 15, log 17). -/
def Obligations.VendorIdentitySendsBlock : Prop :=
  (∀ (c : Config) (b : Block), c.wf → b[0] = 0xF4 → b[1] = c.f4SubIdentity → decodeBlock c b = .vendorIdentity) ∧
  ∀ s : State, s.txRem = [] →
    exec .vendorIdentity s = .next { s with
      txRem := (match s.cfg.f4IdBlock with | .short v => v.toList | .long v => v.toList)
      txActive := true }

/-- VENDOR_UPDATE (44_vendor.md; the spec's decision D15, log 18): the mode becomes UPDATE, nothing is sent, and
the handler stops there: the captured words stay. That byte 1 selects is D11 (log 15), and that the enables and
pipelines stay as they were is the model's inference (DEDUCED, log 43). -/
def Obligations.VendorUpdateStopsTheHandler : Prop :=
  (∀ (c : Config) (b : Block), c.wf → b[0] = 0xF4 → b[1] = c.f4SubUpdate → decodeBlock c b = .vendorUpdate) ∧
  (∀ s : State, exec .vendorUpdate s = .next { s with mode := .update }) ∧
  ∀ (s : State) (rest : List HostEvent), s.mode = .emu → s.irqEnDir = true → s.dir = .h2d →
    s.script = .dirOut :: rest → decode s.cfg s.rxq = .vendorUpdate →
    step s = .next { s with script := rest, dir := .d2h, out := s.out ++ [[]], mode := .update }

/-- VENDOR_OTHER (44_vendor.md): treated as an unknown request. This is the spec's decision D13, not the source's
(log 16), and that byte 1 selects is its decision D11 (log 15). -/
def Obligations.VendorOtherRaisesIllegalRequest : Prop :=
  (∀ (c : Config) (b : Block), c.wf → b[0] = 0xF4 → b[1] ≠ c.f4SubIdentity → b[1] ≠ c.f4SubUpdate →
    decodeBlock c b = .vendorOther b[1]) ∧
  ∀ (sub : Byte) (s : State), s.cfg.wf →
    exec (.vendorOther sub) s = .next { s with err := true, ler := 0x052000 }

/-- READ in bounds (42_read.md): the exact slice of the image from byte offset `4A`, `L` rounded down to a
multiple of 32 bytes long, and the latch is set; the error state is not touched. Unbounded arithmetic and the
strict bound are the spec's decisions D6 and D7 (log 10, log 11), an empty slice's idle send side D9 (log 13). -/
def Obligations.ReadInBoundsSendsExactSlice : Prop :=
  (∀ (c : Config) (b : Block), b[0] = 0xA8 →
    decodeBlock c b = .read (be32 b[4] b[5] b[6] b[7]) (be32 b[8] b[9] b[10] b[11])) ∧
  ∀ (a l : BitVec 32) (s : State) (base : Nat), s.cfg.wf → imgBase s.cfg s.media = some base → s.txRem = [] →
    a.toNat * 4 + (l.toNat - l.toNat % 32) ≤ s.cfg.flashEnd - base →
    exec (.read a l) s = .next { s with
      eal := true
      txRem := (List.range (l.toNat - l.toNat % 32)).map fun k => s.flash.read (base + a.toNat * 4 + k)
      txActive := decide (32 ≤ l.toNat) }

/-- READ out of bounds (42_read.md): nothing is sent, the pin is asserted, the register holds 0x056300, and the
latch is set all the same (the spec's decision D8, log 12; D6 and D7, log 10, log 11). -/
def Obligations.ReadOutOfBoundsRaisesLeadOut : Prop :=
  ∀ (a l : BitVec 32) (s : State) (base : Nat), s.cfg.wf → imgBase s.cfg s.media = some base →
    s.cfg.flashEnd - base < a.toNat * 4 + (l.toNat - l.toNat % 32) →
    exec (.read a l) s = .next { s with eal := true, err := true, ler := 0x056300 }

/-- A command that sends is refused while a frame is in flight (the spec's decision D38, log 39), and READ where
no valid media was found (log 40). -/
def Obligations.DispatcherRefusals : Prop :=
  ∀ s : State, s.cfg.wf →
    (s.txRem ≠ [] →
      exec .inquiry s = .refused .sendBusy ∧
      (∀ a l : BitVec 32, exec (.seek a l) s = .refused .sendBusy) ∧
      exec .requestError s = .refused .sendBusy ∧
      exec .stopMotor s = .refused .sendBusy ∧
      exec .audioBufferConfig s = .refused .sendBusy ∧
      exec .vendorIdentity s = .refused .sendBusy ∧
      ∀ (a l : BitVec 32) (base : Nat), imgBase s.cfg s.media = some base →
        a.toNat * 4 + (l.toNat - l.toNat % 32) ≤ s.cfg.flashEnd - base →
        exec (.read a l) s = .refused .sendBusy) ∧
    (s.media = .none → ∀ a l : BitVec 32, exec (.read a l) s = .refused .noMedia)

/-! ## All commands -/

/-- The frame of every command: `LER`, `EAL`, `MODE`, `TXREM`, `TX_ACTIVE` and `ERR` are all that any command can
change; the direction, the receive buffer, the clock mask, the reset sense, the enables, the pipelines, what the
host has received and every byte of the flash stay. For VENDOR_UPDATE that the enables and pipelines stay is the
model's inference (DEDUCED, log 43). -/
def Obligations.CommandsChangeOnlyDispatcherState : Prop :=
  ∀ (i : Instr) (s t : State), exec i s = .next t →
    t = { s with
      ler := t.ler, eal := t.eal, mode := t.mode, txRem := t.txRem, txActive := t.txActive, err := t.err } ∧
    ∀ addr : Nat, t.flash.read addr = s.flash.read addr

/-- What each dispatched command does, one action for each, and that it does neither of the other two
(41_dispatch_fixed.md section 1, an inference of the spec's). A command that sends: no frame was in flight, the frame
armed is that command's whole response, and pin and mode stay, as does the register but for REQUEST_ERROR's clear. One
that fails: the pin is asserted, the register holds its code, and frame and mode stay. VENDOR_UPDATE: the mode becomes
`UPDATE` and nothing else changes. The spec's decisions: D6, D7, D9 for READ (log 10, log 11, log 13), D13 for
VENDOR_OTHER (log 16), D14 and D16 for the two blocks (log 17, log 19), D15 for VENDOR_UPDATE (log 18), whose enables
and pipelines stay by log 43, D21 for the register and pin (log 24). -/
def Obligations.RequestSendsOrFailsOrReboots : Prop :=
  ∀ (i : Instr) (s t : State), s.cfg.wf → exec i s = .next t →
    let sends := fun response : List Byte =>
      s.txRem = [] ∧ t.txRem = response ∧ t.txActive = decide (response ≠ []) ∧ t.err = s.err ∧ t.mode = s.mode
    let fails := fun code : Sense =>
      t.err = true ∧ t.ler = code ∧ t.txRem = s.txRem ∧ t.txActive = s.txActive ∧ t.mode = s.mode
    match i with
    | .absent _ => fails 0x040800
    | .inquiry => sends s.cfg.inquiryBlock.toList ∧ t.ler = s.ler
    | .read a l =>
      ∃ base, imgBase s.cfg s.media = some base ∧
        if a.toNat * 4 + (l.toNat - l.toNat % 32) ≤ s.cfg.flashEnd - base then
          sends ((List.range (l.toNat - l.toNat % 32)).map fun k => s.flash.read (base + a.toNat * 4 + k)) ∧
            t.ler = s.ler
        else fails 0x056300
    | .seek _ _ => sends [0, 0, 0, 0] ∧ t.ler = s.ler
    | .requestError =>
      sends [0, s.ler.extractLsb' 16 8, s.ler.extractLsb' 8 8, s.ler.extractLsb' 0 8] ∧ t.ler = 0
    | .stopMotor => sends [0, 0, 0, 0] ∧ t.ler = s.ler
    | .audioBufferConfig => sends [0, 0, 0, 0] ∧ t.ler = s.ler
    | .vendorIdentity =>
      sends (match s.cfg.f4IdBlock with | .short v => v.toList | .long v => v.toList) ∧ t.ler = s.ler
    | .vendorUpdate => t = { s with mode := .update }
    | .vendorOther _ => fails 0x052000
    | .unknown _ => fails 0x052000

/-- Which command raises which error, completely: with the pin released before, it is asserted after exactly for
ABSENT, UNKNOWN, VENDOR_OTHER and a READ past the bound, and then the register holds that command's code
(60_exceptions.md section 1, an inference of the spec's; READ's bound by D6 and D7, log 10, log 11; VENDOR_OTHER by
D13, log 16; that VENDOR_UPDATE leaves the pin is DEDUCED, log 43). -/
def Obligations.ErrorsRaisedCompletely : Prop :=
  ∀ (i : Instr) (s t : State), s.cfg.wf → s.err = false → exec i s = .next t →
    match i with
    | .absent _ => t.err = true ∧ t.ler = 0x040800
    | .unknown _ => t.err = true ∧ t.ler = 0x052000
    | .vendorOther _ => t.err = true ∧ t.ler = 0x052000
    | .read a l =>
      ∃ base, imgBase s.cfg s.media = some base ∧
        (t.err = true ↔ s.cfg.flashEnd - base < a.toNat * 4 + (l.toNat - l.toNat % 32)) ∧
        (t.err = true → t.ler = 0x056300)
    | .inquiry => t.err = false
    | .seek _ _ => t.err = false
    | .requestError => t.err = false
    | .stopMotor => t.err = false
    | .audioBufferConfig => t.err = false
    | .vendorIdentity => t.err = false
    | .vendorUpdate => t.err = false

/-- A command that succeeds changes neither the register nor the pin, whether the pin was asserted before or not:
INQUIRY, SEEK, STOP_MOTOR, AUDIO_BUFFER_CONFIG, VENDOR_IDENTITY and a READ in bounds. the register and leaves the pin. No command releases the pin, and one that ends with the pin released, REQUEST_ERROR
apart, leaves the register (41_dispatch_fixed.md section 1, 43_error_commands.md; the spec's decisions D20 and D21,
log 23, log 24; READ's bound by D6 and D7, log 10, log 11; for VENDOR_UPDATE, DEDUCED, log 43). -/
def Obligations.SuccessLeavesErrorState : Prop :=
  ∀ (i : Instr) (s t : State), exec i s = .next t →
    (s.err = true → t.err = true) ∧ (t.err = false → i ≠ .requestError → t.ler = s.ler) ∧
    (i = .requestError → t.err = s.err ∧ t.ler = 0) ∧
    (i ∈ [.inquiry, .stopMotor, .audioBufferConfig, .vendorIdentity] → t.ler = s.ler ∧ t.err = s.err) ∧
    (∀ a l : BitVec 32, i = .seek a l → t.ler = s.ler ∧ t.err = s.err) ∧
    ∀ (a l : BitVec 32) (base : Nat), i = .read a l → imgBase s.cfg s.media = some base →
      a.toNat * 4 + (l.toNat - l.toNat % 32) ≤ s.cfg.flashEnd - base → t.ler = s.ler ∧ t.err = s.err

/-- The latch after a command: READ sets it, in bounds or not, and every other command leaves it (42_read.md; the
spec's decision D8, log 12). -/
def Obligations.OnlyReadSetsLatch : Prop :=
  ∀ (i : Instr) (s t : State), exec i s = .next t → (t.eal = true ↔ s.eal = true ∨ ∃ a l, i = .read a l)

/-- The frame a command sends is 4 or 32 bytes long, or for READ the masked length, a multiple of 32
(20_memory.md section 3, 30_encoding.md section 7). -/
def Obligations.ResponseLengths : Prop :=
  ∀ (i : Instr) (s t : State), exec i s = .next t → s.txRem = [] →
    match i with
    | .read _ l => t.txRem.length = 0 ∨ (t.txRem.length = l.toNat - l.toNat % 32 ∧ t.txRem.length % 32 = 0)
    | .inquiry => t.txRem.length = 32
    | .vendorIdentity => t.txRem.length = 4 ∨ t.txRem.length = 32
    | .seek _ _ => t.txRem.length = 4
    | .requestError => t.txRem.length = 4
    | .stopMotor => t.txRem.length = 4
    | .audioBufferConfig => t.txRem.length = 4
    | .absent _ => t.txRem = []
    | .vendorUpdate => t.txRem = []
    | .vendorOther _ => t.txRem = []
    | .unknown _ => t.txRem = []

/-- Drain: after a transaction that failed, a REQUEST_ERROR transaction has that command's code with a zero status byte
ready to be taken, and a second one all zeros, although the host took nothing of the first (43_error_commands.md
section on REQUEST_ERROR, an inference of the spec's; D21, log 24). -/
def Obligations.RequestErrorDrains : Prop :=
  ∀ (s t : State) (rest : List HostEvent), s.Inv → s.dir = .h2d → s.clkMask = false → s.err = false →
    s.script = .dirOut :: (.dirIn :: ((encode s.cfg .requestError).map .rxWord ++ .dirOut ::
      (.dirIn :: ((encode s.cfg .requestError).map .rxWord ++ .dirOut :: rest)))) →
    step s = .next t → t.err = true →
    ∃ u v, steps 5 t = .next u ∧ u.ler = 0 ∧
      u.txRem = [0, t.ler.extractLsb' 16 8, t.ler.extractLsb' 8 8, t.ler.extractLsb' 0 8] ∧
      steps 5 u = .next v ∧ v.ler = 0 ∧ v.txRem = [0, 0, 0, 0]

/-- `raise DriveError` (R172): the pin is asserted, the code stored, and nothing else is saved, sent or changed;
a command that asserts the pin has no other effect, but for READ's latch; and the event in which the pin is asserted
ends with the receive pipeline reset, nothing sent and no mode, mask or enable changed. -/
def Obligations.DriveErrorEntry : Prop :=
  (∀ (code : Sense) (s : State), s.raiseDriveError code = { s with err := true, ler := code }) ∧
  (∀ (i : Instr) (s t : State), exec i s = .next t → s.err = false → t.err = true →
    t = { s with err := true, ler := t.ler, eal := t.eal } ∧ (t.eal = s.eal ∨ ∃ a l, i = .read a l)) ∧
  ∀ s t : State, step s = .next t → s.err = false → t.err = true →
    t.rxq = [] ∧ t.txRem = s.txRem ∧ t.mode = s.mode ∧ t.clkMask = s.clkMask ∧ t.rstSense = s.rstSense ∧
      (t.irqEnRst, t.irqEnBrk, t.irqEnDir) = (s.irqEnRst, s.irqEnBrk, s.irqEnDir)

/-! ## Events -/

/-- A step runs the decoded command: when the bus turns to outgoing, `step` is `exec` of the command in the captured
words, on the state with the direction turned and an empty frame opened, and then the receive pipeline is reset,
unless the reboot was triggered (R91). The event has a step only in `EMU` with the direction incoming; no word at all
is the absent command; and no command leads from `EMU` to passthrough. -/
def Obligations.StepRunsDecodedCommand : Prop :=
  (∀ (s : State) (rest : List HostEvent), s.mode = .emu → s.irqEnDir = true → s.dir = .h2d →
    s.script = .dirOut :: rest →
    step s =
      match exec (decode s.cfg s.rxq) { s with script := rest, dir := .d2h, out := s.out ++ [[]] } with
      | .next t => .next (if t.mode = .update then t else { t with rxq := [] })
      | .fault f => .fault f
      | .refused r => .refused r) ∧
  (∀ (s t : State) (rest : List HostEvent), s.script = .dirOut :: rest → step s = .next t →
    s.mode = .emu ∧ s.dir = .h2d) ∧
  (∀ c : Config, decode c [] = .absent 0) ∧
  ∀ (i : Instr) (s t : State), exec i s = .next t → s.mode = .emu → t.mode = .emu ∨ t.mode = .update

/-- The malformed transaction: fewer than three captured words, whatever they hold, become 0x040800 with an empty
frame and the words discarded. -/
def Obligations.ShortTransactionIsMalformed : Prop :=
  ∀ (s : State) (rest : List HostEvent), s.cfg.wf → s.mode = .emu → s.irqEnDir = true → s.dir = .h2d →
    s.script = .dirOut :: rest → s.rxq.length < 3 →
    step s = .next { s with
      script := rest, dir := .d2h, out := s.out ++ [[]], rxq := [], err := true, ler := 0x040800 }

/-- `E_RXWORD` (40_transport.md section 2): the word is buffered if there is room and dropped if not; while the clock
is masked it may be dropped as well (the spec's decisions D4 and D23; the draw's counter is the model's, log 4,
log 8). -/
def Obligations.WordIsBufferedOrDropped : Prop :=
  ∀ (s : State) (w : Word) (rest : List HostEvent), s.mode = .emu → s.dir = .h2d → s.script = .rxWord w :: rest →
    (s.clkMask = false → s.rxq.length < s.cfg.rxDepth →
      step s = .next { s with script := rest, rxq := s.rxq ++ [w] }) ∧
    (s.clkMask = false → s.cfg.rxDepth ≤ s.rxq.length → step s = .next { s with script := rest }) ∧
    (s.clkMask = true →
      step s = .next { s with script := rest, draws := s.draws + 1 } ∨
      (s.rxq.length < s.cfg.rxDepth ∧
        step s = .next { s with script := rest, draws := s.draws + 1, rxq := s.rxq ++ [w] }))

/-- `E_DIR_IN` (40_transport.md section 3): what is left of the frame is discarded, the receive pipeline rearmed, and
the pin released exactly if the OPEN parameter P17 says so (the spec's decisions D20, D25, log 23, log 27). -/
def Obligations.HostReclaimsBus : Prop :=
  ∀ (s : State) (rest : List HostEvent), s.mode = .emu → s.irqEnDir = true → s.dir = .d2h →
    s.script = .dirIn :: rest →
    step s = .next { s with
      script := rest, dir := .h2d, txRem := [], txActive := false, rxq := [],
      err := (!s.cfg.errClearOnDirIn && s.err) }

/-- `E_TXWORD` (40_transport.md section 4): the next four bytes of the frame join the open frame of what the host has
received; with the clock masked or nothing left it has no step (the spec's decisions D24, D27, log 26, log 29). -/
def Obligations.HostTakesNextWord : Prop :=
  ∀ (s : State) (rest : List HostEvent) (front : List (List Byte)) (f : List Byte) (b0 b1 b2 b3 : Byte)
    (more : List Byte), s.mode = .emu → s.dir = .d2h → s.script = .txWord :: rest → s.out = front ++ [f] →
    (s.clkMask = false → s.txRem = b0 :: b1 :: b2 :: b3 :: more →
      step s = .next { s with
        script := rest, out := front ++ [f ++ [b0, b1, b2, b3]], txRem := more, txActive := decide (more ≠ []) }) ∧
    (s.clkMask = false → s.txRem = [] → step s = .fault .txWait) ∧
    (s.clkMask = true → step s = .fault .txMasked)

/-- `E_RST_ASSERT` (R95): the clock is masked, the pin released and the sense flipped; the buffers, the direction, the
register and the latch are not touched; while release is watched for the event has no step. -/
def Obligations.ResetAssertMasksClock : Prop :=
  ∀ (s : State) (rest : List HostEvent), s.mode = .emu → s.irqEnRst = true → s.script = .rstAssert :: rest →
    (s.rstSense = .waitAssert →
      step s = .next { s with script := rest, clkMask := true, err := false, rstSense := .waitRelease }) ∧
    (s.rstSense = .waitRelease → ∀ t, step s ≠ .next t)

/-- `E_RST_RELEASE` (40_transport.md section 6): both pipelines are cleared and the direction is host-to-drive; then the
latch decides between emulation and passthrough; then the clock is un-masked, in either case (the spec's decisions
D19, D34, D37, log 22, log 36, log 38). -/
def Obligations.ResetReleaseClearsPipelines : Prop :=
  ∀ (s : State) (rest : List HostEvent), s.mode = .emu → s.irqEnRst = true → s.script = .rstRelease :: rest →
    s.rstSense = .waitRelease →
    (s.eal = false →
      step s = .next { s with
        script := rest, rxq := [], txRem := [], txActive := false, dir := .h2d, clkMask := false,
        rstSense := .waitAssert }) ∧
    (s.eal = true →
      step s = .next { s with
        script := rest, rxq := [], txRem := [], txActive := false, dir := .h2d, clkMask := false,
        rstSense := .waitAssert, mode := .passthrough, irqEnRst := false, irqEnBrk := false, irqEnDir := false,
        dirPipe := .bypass, pipeRxEn := false, pipeTxEn := false, pipePtEn := true, lineOvr := false })

/-- `E_BRK` (40_transport.md section 7): acknowledged on either edge, with no effect on any element (the spec's decision
D28, log 30). -/
def Obligations.BreakChangesNothing : Prop :=
  ∀ (s : State) (edge : Edge) (rest : List HostEvent), s.mode = .emu → s.irqEnBrk = true →
    s.script = .brk edge :: rest → step s = .next { s with script := rest }

/-- With no event pending the block idles in `EMU`; outside `EMU` nothing has a step (40_transport.md section 8; that an
idle step exists at all is the model's choice, log 6; the stops are named in log 5). -/
def Obligations.IdleAndFinishedSteps : Prop :=
  ∀ s : State,
    (s.mode = .emu → s.script = [] → step s = .next s) ∧
    (s.mode = .passthrough → step s = .fault .passthrough) ∧
    (s.mode = .update → step s = .fault .update)

/-- The moves the spec assumes the host never makes are refused: a word against the direction, a word taken against
the direction, a turn to the direction the bus has, a reset phase that is not watched for (70_reset_and_hazards.md
section 5, rows HA1, HA2, HA4; the spec's decision D26; that they are refusals is log 28). -/
def Obligations.ImpossibleHostMovesRefused : Prop :=
  ∀ (s : State) (rest : List HostEvent), s.mode = .emu →
    (∀ w : Word, s.script = .rxWord w :: rest → s.dir = .d2h → step s = .refused .wordWhileOutgoing) ∧
    (s.script = .txWord :: rest → s.dir = .h2d → step s = .refused .takeWhileIncoming) ∧
    (s.script = .dirIn :: rest → s.dir = .h2d → s.irqEnDir = true → step s = .refused .repeatedDirection) ∧
    (s.script = .dirOut :: rest → s.dir = .d2h → s.irqEnDir = true → step s = .refused .repeatedDirection) ∧
    (s.script = .rstAssert :: rest → s.rstSense = .waitRelease → s.irqEnRst = true →
      step s = .refused .resetPhase) ∧
    (s.script = .rstRelease :: rest → s.rstSense = .waitAssert → s.irqEnRst = true →
      step s = .refused .resetPhase)

/-- The interrupt enables (R30): all 1 after power-on with an image, all written 0 by `enable_passthrough`, never written
back to 1, and an event whose enable is 0 has no handler step. -/
def Obligations.InterruptEnables : Prop :=
  (∀ (c : Config) (m : Memory), resolve c m ≠ .none →
    (State.powerOn c m).irqEnRst = true ∧ (State.powerOn c m).irqEnBrk = true ∧
      (State.powerOn c m).irqEnDir = true) ∧
  (∀ s : State, s.enablePassthrough.irqEnRst = false ∧ s.enablePassthrough.irqEnBrk = false ∧
    s.enablePassthrough.irqEnDir = false) ∧
  (∀ s t : State, step s = .next t →
    (s.irqEnRst = false → t.irqEnRst = false) ∧ (s.irqEnBrk = false → t.irqEnBrk = false) ∧
      (s.irqEnDir = false → t.irqEnDir = false)) ∧
  ∀ (s : State) (e : HostEvent) (rest : List HostEvent), s.mode = .emu → s.script = e :: rest →
    (s.irqEnDir = false → e = .dirOut ∨ e = .dirIn → ∀ t, step s ≠ .next t) ∧
    (s.irqEnRst = false → e = .rstAssert ∨ e = .rstRelease → ∀ t, step s ≠ .next t) ∧
    (s.irqEnBrk = false → ∀ edge, e = .brk edge → ∀ t, step s ≠ .next t)

/-- `enable_passthrough` (40_transport.md section 8): the three enables, the direction pipeline, the sequencers, the line override and the
mode, and nothing else; idempotent; called by the reset entry with the latch set and by the boot agent when no valid
media was found; no command enters passthrough. That afterwards nothing has a step is 40_transport.md section 8 and the
spec's decision D33 (log 35), said by the name of the model's own stop (log 5). -/
def Obligations.EnablePassthroughHandsOver : Prop :=
  (∀ s : State, s.enablePassthrough = { s with
    irqEnRst := false, irqEnBrk := false, irqEnDir := false, dirPipe := .bypass, pipeRxEn := false,
    pipeTxEn := false, pipePtEn := true, lineOvr := false, mode := .passthrough }) ∧
  (∀ s : State, s.enablePassthrough.enablePassthrough = s.enablePassthrough) ∧
  (∀ s : State, s.eal = true → s.resetEntry = s.enablePassthrough) ∧
  (∀ (c : Config) (m : Memory), resolve c m = .none → (State.powerOn c m).enablePassthrough = State.powerOn c m) ∧
  (∀ s : State, step s.enablePassthrough = .fault .passthrough) ∧
  ∀ (i : Instr) (s t : State), exec i s = .next t → t.mode = .passthrough → s.mode = .passthrough

/-- The dispatcher's reset entry (R126): with the latch set it requests passthrough, else it is a no-op; the register
and the latch are never changed, and the register is not read; only a bus-reset release calls it, so only that enters
passthrough. -/
def Obligations.ResetEntryPolicy : Prop :=
  (∀ s : State,
    (s.eal = true → s.resetEntry = s.enablePassthrough) ∧ (s.eal = false → s.resetEntry = s) ∧
    s.resetEntry.ler = s.ler ∧ s.resetEntry.eal = s.eal ∧
    ∀ v : Sense, State.resetEntry { s with ler := v } = { s.resetEntry with ler := v }) ∧
  ∀ s t : State, step s = .next t → t.mode = .passthrough → s.script.head? = some .rstRelease ∧ s.eal = true

/-! ## Boot -/

/-- The power-on state (10_state.md section 7, 70_reset_and_hazards.md section 1). The values the source does not state
are the spec's decisions D17, D18, D19 (log 20, log 21, log 22), as are, with no valid media, the elements the spec
leaves unspecified. -/
def Obligations.PowerOnState : Prop :=
  (∀ (c : Config) (m : Memory), resolve c m ≠ .none →
    State.powerOn c m =
      { ler := 0, eal := false, mode := .emu, dir := .h2d, rxq := [], txRem := [], txActive := false, err := false,
        clkMask := false, rstSense := .waitAssert, irqEnRst := true, irqEnBrk := true, irqEnDir := true,
        pipeRxEn := true, pipeTxEn := true, pipePtEn := false, dirPipe := .normal, lineOvr := true, out := [],
        cfg := c, media := resolve c m, flash := m, script := [], draws := 0 }) ∧
  (∀ (c : Config) (m : Memory), resolve c m = .none →
    State.powerOn c m =
      { ler := 0, eal := false, mode := .passthrough, dir := .h2d, rxq := [], txRem := [], txActive := false,
        err := false, clkMask := false, rstSense := .waitAssert, irqEnRst := false, irqEnBrk := false,
        irqEnDir := false, pipeRxEn := false, pipeTxEn := false, pipePtEn := true, dirPipe := .bypass,
        lineOvr := false, out := [], cfg := c, media := .none, flash := m, script := [], draws := 0 }) ∧
  State.reset = State.powerOn Config.chip [] ∧ Config.chip.wf

/-- Step 1 of the Media Resolver (R203): the raw image, based at the payload's start, is selected exactly when the four
bytes at payload offset 0x1C are 3d 9f 33 c2. -/
def Obligations.MagicSelectsRawImage : Prop :=
  ∀ (c : Config) (m : Memory), c.wf → imgBase c .raw = some c.payloadAddr ∧
    (resolve c m = .raw ↔
      m.read (c.payloadAddr + 0x1C) = 0x3D ∧ m.read (c.payloadAddr + 0x1D) = 0x9F ∧
        m.read (c.payloadAddr + 0x1E) = 0x33 ∧ m.read (c.payloadAddr + 0x1F) = 0xC2)

/-- Step 2 of the Media Resolver (70_reset_and_hazards.md section 2): without the magic the wrapped image is selected
exactly when none of the checks (a) to (g) rejects the header. Alignment unit, half-open ranges, one window and sums
without wrap are the spec's decision D31 (log 33); big-endian fields are general knowledge (log 34). -/
def Obligations.ValidExecutableSelectsWrappedImage : Prop :=
  ∀ (c : Config) (m : Memory), c.wf → resolve c m ≠ .raw →
    let field := fun i : Nat =>
      (m.read (c.payloadAddr + i)).toNat * 2 ^ 24 + (m.read (c.payloadAddr + (i + 1))).toNat * 2 ^ 16 +
        (m.read (c.payloadAddr + (i + 2))).toNat * 2 ^ 8 + (m.read (c.payloadAddr + (i + 3))).toNat
    let off := fun k : Nat => field (4 * k)
    let adr := fun k : Nat => field (0x48 + 4 * k)
    let siz := fun k : Nat => field (0x90 + 4 * k)
    let window := fun x : Nat => 0x80000000 ≤ x ∧ x < 0x81200000
    (resolve c m = .wrapped ↔
      field 0xE0 % 4 = 0 ∧
      window (field 0xE0) ∧
      (∀ k < 18, adr k ≠ 0 → window (adr k)) ∧
      (∃ k < 7, adr k ≤ field 0xE0 ∧ field 0xE0 < adr k + siz k) ∧
      (field 0xD8 = 0 ∨ 0x80000000 ≤ field 0xD8) ∧
      (∃ k < 18, c.dolMinSize ≤ off k + siz k) ∧
      (∀ k < 18, c.payloadAddr + (off k + siz k) ≤ c.flashEnd))

/-- Image geometry (R207): the raw image starts at the payload, the wrapped one at the header before it, so that its
bytes after the header are the payload's; the image reaches to the end of flash; and no step reassigns the
selection. -/
def Obligations.ImageGeometry : Prop :=
  (∀ c : Config, c.wf →
    imgBase c .raw = some c.payloadAddr ∧
    imgBase c .wrapped = some (c.payloadAddr - c.hdrSize) ∧
    (∀ base : Nat, imgLen c base = c.flashEnd - base) ∧
    ∀ s : State, s.cfg = c → ∀ i : Nat,
      memRead s (c.payloadAddr - c.hdrSize) i 1 = [s.flash.read (c.payloadAddr - c.hdrSize + i)] ∧
      memRead s (c.payloadAddr - c.hdrSize) (c.hdrSize + i) 1 = [payloadByte c s.flash i] ∧
      memRead s c.payloadAddr i 1 = [payloadByte c s.flash i]) ∧
  ∀ s t : State, step s = .next t → t.media = s.media ∧ imgBase t.cfg t.media = imgBase s.cfg s.media

/-! ## The whole machine -/

/-- THE INVARIANT: every step from a state that meets the invariants of 10_state.md section 6 leads to one that does,
whatever the host does and whatever the parameters and the flash are. -/
def Obligations.StepKeepsInvariant : Prop :=
  ∀ s t : State, s.Inv → step s = .next t → t.Inv

/-- The invariants hold at reset. -/
def Obligations.ResetMeetsInvariant : Prop := State.reset.Inv

/-- They hold after power-on over any flash with any admissible parameters, and the host's script may be any. -/
def Obligations.PowerOnMeetsInvariant : Prop :=
  ∀ (c : Config) (m : Memory) (moves : List HostEvent), c.wf → m.wf →
    State.Inv { State.powerOn c m with script := moves }

/-- Mode transitions, completely (R184): power-on leads to `EMU` or, with no valid media, `PASSTHROUGH`; `EMU` is left
only by a bus-reset release with the latch set and by VENDOR_UPDATE; the other modes are never left. -/
def Obligations.ModeTransitionsComplete : Prop :=
  (∀ (c : Config) (m : Memory),
    (resolve c m ≠ .none → (State.powerOn c m).mode = .emu) ∧
    (resolve c m = .none → (State.powerOn c m).mode = .passthrough)) ∧
  ∀ s t : State, step s = .next t →
    s.mode = .emu ∧
    (t.mode = .passthrough ↔ s.script.head? = some .rstRelease ∧ s.eal = true) ∧
    (t.mode = .update ↔ s.script.head? = some .dirOut ∧ decode s.cfg s.rxq = .vendorUpdate)

/-- The image is immutable (R51): no command and no event writes a byte of the flash, or the parameters through which it
is read, however many steps are taken, and two reads of one range return the same bytes at any two times. -/
def Obligations.ImageNeverWritten : Prop :=
  ∀ (n : Nat) (s t : State), steps n s = .next t →
    (∀ addr : Nat, t.flash.read addr = s.flash.read addr) ∧ t.flash = s.flash ∧ t.cfg = s.cfg ∧ t.media = s.media ∧
    ∀ base off n : Nat, memRead t base off n = memRead s base off n

/-- The latch is never cleared, and only the dispatch of a READ sets it (10_state.md section 2; the spec's decision D8,
log 12). -/
def Obligations.LatchNeverClears : Prop :=
  ∀ s t : State, step s = .next t →
    (s.eal = true → t.eal = true) ∧
    (s.eal = false → t.eal = true → s.script.head? = some .dirOut ∧ ∃ a l, decode s.cfg s.rxq = .read a l)

/-- The Last-Error Register is read by REQUEST_ERROR only (10_state.md section 2): in every other step another value of
it changes nothing but the register itself. -/
def Obligations.RegisterReadOnlyByRequestError : Prop :=
  ∀ (s : State) (v : Sense),
    ¬ (s.script.head? = some .dirOut ∧ decode s.cfg s.rxq = .requestError) →
    (∀ t, step s = .next t →
      step { s with ler := v } = .next t ∨
        (t.ler = s.ler ∧ step { s with ler := v } = .next { t with ler := v })) ∧
    (∀ f, step s = .fault f → step { s with ler := v } = .fault f) ∧
    ∀ r, step s = .refused r → step { s with ler := v } = .refused r

/-- Who writes what (10_state.md section 10, an inference of the spec's): an element that a step changes belongs to the
event that step handled. That of the events only a bus-reset release changes the enables and pipelines, VENDOR_UPDATE
leaving them, is the model's inference (DEDUCED, log 43). -/
def Obligations.WritersOfEachElement : Prop :=
  ∀ s t : State, step s = .next t →
    let e := s.script.head?
    (t.ler ≠ s.ler → e = some .dirOut) ∧
    (t.eal ≠ s.eal → e = some .dirOut) ∧
    (t.mode ≠ s.mode → e = some .dirOut ∨ e = some .rstRelease) ∧
    (t.dir ≠ s.dir → e = some .dirOut ∨ e = some .dirIn ∨ e = some .rstRelease) ∧
    (t.rxq ≠ s.rxq → (∃ w, e = some (.rxWord w)) ∨ e = some .dirOut ∨ e = some .dirIn ∨ e = some .rstRelease) ∧
    (t.txRem ≠ s.txRem → e = some .dirOut ∨ e = some .txWord ∨ e = some .dirIn ∨ e = some .rstRelease) ∧
    (t.txActive ≠ s.txActive → e = some .dirOut ∨ e = some .txWord ∨ e = some .dirIn ∨ e = some .rstRelease) ∧
    (t.err ≠ s.err → e = some .dirOut ∨ e = some .rstAssert ∨ (e = some .dirIn ∧ s.cfg.errClearOnDirIn = true)) ∧
    (t.clkMask ≠ s.clkMask → e = some .rstAssert ∨ e = some .rstRelease) ∧
    (t.rstSense ≠ s.rstSense → e = some .rstAssert ∨ e = some .rstRelease) ∧
    (t.out ≠ s.out → e = some .dirOut ∨ e = some .txWord) ∧
    ((t.irqEnRst, t.irqEnBrk, t.irqEnDir, t.pipeRxEn, t.pipeTxEn, t.pipePtEn, t.dirPipe, t.lineOvr) ≠
      (s.irqEnRst, s.irqEnBrk, s.irqEnDir, s.pipeRxEn, s.pipeTxEn, s.pipePtEn, s.dirPipe, s.lineOvr) →
      e = some .rstRelease)

/-- The error pin is released only by a bus-reset assertion, or by the change to incoming if parameter P17 says so
(60_exceptions.md section 1; the spec's decision D20, log 23). -/
def Obligations.ErrorPinReleasedOnlyBy : Prop :=
  ∀ s t : State, step s = .next t → s.err = true → t.err = false →
    s.script.head? = some .rstAssert ∨ (s.script.head? = some .dirIn ∧ s.cfg.errClearOnDirIn = true)

/-- A complete bus reset keeps the register and the latch; with the latch clear the block goes on in `EMU`, with it set
the bus is the real drive's for good (70_reset_and_hazards.md section 3, an inference of the spec's; D19, D34, D37,
log 22, log 36, log 38). That nothing has a step there is 40_transport.md section 8 and D33 (log 35), said by the name
of the model's own stop (log 5). -/
def Obligations.BusResetKeepsRegisterAndLatch : Prop :=
  ∀ (s : State) (rest : List HostEvent), s.mode = .emu → s.irqEnRst = true → s.rstSense = .waitAssert →
    s.script = .rstAssert :: .rstRelease :: rest →
    ∃ m t, step s = .next m ∧ m.clkMask = true ∧ step m = .next t ∧ t.clkMask = false ∧
      t.ler = s.ler ∧ t.eal = s.eal ∧ t.err = false ∧ t.rxq = [] ∧ t.txRem = [] ∧ t.txActive = false ∧
      t.dir = .h2d ∧ t.rstSense = .waitAssert ∧ t.out = s.out ∧ t.script = rest ∧
      (s.eal = false → t.mode = .emu) ∧
      (s.eal = true → t.mode = .passthrough ∧ step t = .fault .passthrough)

/-- What the host receives is a prefix of the frame: `n` words taken are the frame's first `4n` bytes, in order, none
skipped and none repeated (40_transport.md section 4, an inference of the spec's; D24, log 26). -/
def Obligations.HostReceivesFramePrefix : Prop :=
  ∀ (n : Nat) (s : State) (rest : List HostEvent) (front : List (List Byte)) (f : List Byte),
    s.mode = .emu → s.dir = .d2h → s.clkMask = false → (s.txActive = true ↔ s.txRem ≠ []) →
    s.script = List.replicate n .txWord ++ rest → s.out = front ++ [f] → 4 * n ≤ s.txRem.length →
    steps n s = .next { s with
      script := rest
      out := front ++ [f ++ s.txRem.take (4 * n)]
      txRem := s.txRem.drop (4 * n)
      txActive := decide (4 * n < s.txRem.length) }

/-- A whole READ transaction, from idle to idle: the host sends the command, takes `n` of its words and turns the bus
back; what it received is the first `4n` bytes of the exact image slice, the latch is set, and no error is recorded
(42_read.md and 40_transport.md; D6 to D9, D24, log 10 to log 13, log 26). -/
def Obligations.ReadTransactionDeliversSlice : Prop :=
  ∀ (s : State) (a l : BitVec 32) (n base : Nat) (rest : List HostEvent), s.Inv → s.Idle →
    imgBase s.cfg s.media = some base →
    a.toNat * 4 + (l.toNat - l.toNat % 32) ≤ s.cfg.flashEnd - base →
    4 * n ≤ l.toNat - l.toNat % 32 →
    s.script = (encode s.cfg (.read a l)).map .rxWord ++ .dirOut :: (List.replicate n .txWord ++ .dirIn :: rest) →
    ∃ t : State, steps (n + 5) s = .next t ∧ t.Idle ∧ t.script = rest ∧
      t.out = s.out ++ [(List.range (4 * n)).map fun k => s.flash.read (base + a.toNat * 4 + k)] ∧
      t.eal = true ∧ t.ler = s.ler ∧ (s.err = false → t.err = false)

/-- The block has no stuck state of its own: in `EMU` the turn to the other direction is always served, and so is the
reset phase that is watched for (60_exceptions.md section 5, an inference of the spec's). -/
def Obligations.EmulationAlwaysServesTheHost : Prop :=
  ∀ s : State, s.Inv → s.mode = .emu →
    (s.dir = .h2d → ∀ rest, ∃ t, step { s with script := .dirOut :: rest } = .next t) ∧
    (s.dir = .d2h → ∀ rest, ∃ t, step { s with script := .dirIn :: rest } = .next t) ∧
    (s.rstSense = .waitAssert → ∀ rest, ∃ t, step { s with script := .rstAssert :: rest } = .next t) ∧
    (s.rstSense = .waitRelease → ∀ rest, ∃ t, step { s with script := .rstRelease :: rest } = .next t)
end

