-- ==== Sys2Proof/Laws/Decode.lean ====
section
/-! SUPPORT. Bytes and words: packing, field assembly and Command Blocks undo one another. -/

namespace Sys2Proof

theorem be32Byte_toNat (v : BitVec 32) (j : Nat) : (be32Byte v j).toNat = v.toNat / 2 ^ (8 * (3 - j)) % 256 := by
  simp [be32Byte, Nat.shiftRight_eq_div_pow]

theorem be32_toNat (b0 b1 b2 b3 : Byte) :
    (be32 b0 b1 b2 b3).toNat = b0.toNat * 2 ^ 24 + b1.toNat * 2 ^ 16 + b2.toNat * 2 ^ 8 + b3.toNat := by
  have h0 := b0.isLt; have h1 := b1.isLt; have h2 := b2.isLt; have h3 := b3.isLt
  rw [be32, BitVec.toNat_ofNat]
  omega

/-- The four bytes of a 32-bit value assemble to it (R74). -/
@[simp] theorem be32_be32Byte (v : BitVec 32) :
    be32 (be32Byte v 0) (be32Byte v 1) (be32Byte v 2) (be32Byte v 3) = v := by
  have hv := v.isLt
  apply BitVec.eq_of_toNat_eq
  simp only [be32_toNat, be32Byte_toNat]
  omega

theorem be32Byte_be32 (b0 b1 b2 b3 : Byte) :
    be32Byte (be32 b0 b1 b2 b3) 0 = b0 ∧ be32Byte (be32 b0 b1 b2 b3) 1 = b1 ∧
      be32Byte (be32 b0 b1 b2 b3) 2 = b2 ∧ be32Byte (be32 b0 b1 b2 b3) 3 = b3 := by
  have h0 := b0.isLt; have h1 := b1.isLt; have h2 := b2.isLt; have h3 := b3.isLt
  refine ⟨?_, ?_, ?_, ?_⟩ <;> apply BitVec.eq_of_toNat_eq <;> simp only [be32_toNat, be32Byte_toNat] <;> omega

/-- The wire bytes of a packed word are the bytes packed into it, in either order (R55). -/
@[simp] theorem byte_packWord (p : ByteOrder) (b0 b1 b2 b3 : Byte) :
    Word.byte p (packWord p b0 b1 b2 b3) 0 = b0 ∧ Word.byte p (packWord p b0 b1 b2 b3) 1 = b1 ∧
      Word.byte p (packWord p b0 b1 b2 b3) 2 = b2 ∧ Word.byte p (packWord p b0 b1 b2 b3) 3 = b3 := by
  cases p
  · obtain ⟨h0, h1, h2, h3⟩ := be32Byte_be32 b3 b2 b1 b0
    exact ⟨h3, h2, h1, h0⟩
  · exact be32Byte_be32 b0 b1 b2 b3

/-- A word is the packing of its wire bytes, in either order (R55). -/
@[simp] theorem packWord_byte (p : ByteOrder) (w : Word) :
    packWord p (Word.byte p w 0) (Word.byte p w 1) (Word.byte p w 2) (Word.byte p w 3) = w := by
  cases p <;> exact be32_be32Byte w

/-- Assembling the three words of a Command Block gives it back (R92). -/
@[simp] theorem blockOfWords_wordsOfBlock (p : ByteOrder) (b : Block) :
    blockOfWords p (packWord p b[0] b[1] b[2] b[3]) (packWord p b[4] b[5] b[6] b[7])
      (packWord p b[8] b[9] b[10] b[11]) = b := by
  simp only [blockOfWords, byte_packWord]
  ext i hi
  interval_cases i <;> rfl

/-- Words sent beyond the block's three change nothing (R81). -/
@[simp] theorem assemble_wordsOfBlock (c : Config) (b : Block) (rest : List Word) :
    assemble c (wordsOfBlock c.wordPack b ++ rest) = some b := by
  simp [assemble, wordsOfBlock]

/-- Fewer than three words make no block (R80, R92). -/
theorem assemble_eq_none {c : Config} {q : List Word} : assemble c q = none ↔ q.length < 3 := by
  match q with
  | [] | [_] | [_, _] => simp [assemble]
  | _ :: _ :: _ :: _ => simp [assemble]

end Sys2Proof
end

