-- ==== Sys2Proof/Laws/Memory.lean ====
section
/-! SUPPORT. The flash: reading after a write, and that a write keeps the canonical form. -/

namespace Sys2Proof.Machine

@[simp] theorem Memory.read_nil (a : Nat) : Memory.read [] a = Config.flashByte a := rfl

theorem Memory.wf_nil : Memory.wf [] := ⟨List.Pairwise.nil, by simp⟩

/-- An address below every listed one is unlisted. -/
theorem Memory.read_of_below (m : Memory) (a : Nat) (h : ∀ x ∈ m, a < x.1) :
    Memory.read m a = Config.flashByte a := by
  induction m with
  | nil => rfl
  | cons x m ih =>
    have hx : a < x.1 := h x (by simp)
    rw [Memory.read, if_neg (by omega)]
    exact ih fun y hy => h y (by simp [hy])

theorem Memory.read_write_self (m : Memory) (a : Nat) (v : Byte) (hm : m.wf) :
    (m.write a v).read a = v := by
  induction m with
  | nil => by_cases hv : v = Config.flashByte a <;> simp [Memory.write, Memory.read, hv]
  | cons x m ih =>
    obtain ⟨b, w⟩ := x
    obtain ⟨hp, hu⟩ := hm
    rw [List.pairwise_cons] at hp
    unfold Memory.write
    split
    · next hlt =>
      split
      · next hv =>
        rw [Memory.read_of_below _ _ ?_, hv]
        intro y hy
        rcases List.mem_cons.1 hy with rfl | hy
        · exact hlt
        · exact Nat.lt_trans hlt (hp.1 y hy)
      · simp [Memory.read]
    · split
      · next hab =>
        split
        · next hv => rw [Memory.read_of_below _ _ (hab ▸ hp.1), hv]
        · simp [Memory.read]
      · next hab =>
        rw [Memory.read, if_neg hab]
        exact ih ⟨hp.2, fun y hy => hu y (by simp [hy])⟩

theorem Memory.read_write_other (m : Memory) (a a' : Nat) (v : Byte) (hm : m.wf) (h : a' ≠ a) :
    (m.write a v).read a' = m.read a' := by
  induction m with
  | nil => by_cases hv : v = Config.flashByte a <;> simp [Memory.write, Memory.read, hv, h]
  | cons x m ih =>
    obtain ⟨b, w⟩ := x
    obtain ⟨hp, hu⟩ := hm
    rw [List.pairwise_cons] at hp
    unfold Memory.write
    split
    · split <;> simp [Memory.read, h]
    · split
      · next hab =>
        subst hab
        split <;> simp [Memory.read, h]
      · rw [Memory.read, Memory.read, ih ⟨hp.2, fun y hy => hu y (by simp [hy])⟩]

/-- Every entry after a write was there before or is the written one. -/
theorem Memory.mem_write {m : Memory} {a : Nat} {v : Byte} {x : Host.Cell} (h : x ∈ m.write a v) :
    x ∈ m ∨ (x = (a, v) ∧ v ≠ Config.flashByte a) := by
  induction m with
  | nil =>
    by_cases hv : v = Config.flashByte a
    · simp [Memory.write, hv] at h
    · exact .inr ⟨by simpa [Memory.write, hv] using h, hv⟩
  | cons y m ih =>
    obtain ⟨b, w⟩ := y
    unfold Memory.write at h
    split at h
    · split at h
      · exact .inl h
      · next hv =>
        rcases List.mem_cons.1 h with rfl | h
        · exact .inr ⟨rfl, hv⟩
        · exact .inl h
    · split at h
      · split at h
        · exact .inl (by simp [h])
        · next hv =>
          rcases List.mem_cons.1 h with rfl | h
          · exact .inr ⟨rfl, hv⟩
          · exact .inl (by simp [h])
      · rcases List.mem_cons.1 h with rfl | h
        · exact .inl (by simp)
        · exact (ih h).imp (fun h => by simp [h]) id

theorem Memory.wf_write (m : Memory) (a : Nat) (v : Byte) (hm : m.wf) : (m.write a v).wf := by
  refine ⟨?_, fun x hx => ?_⟩
  · obtain ⟨hp, -⟩ := hm
    induction m with
    | nil => unfold Memory.write; split <;> simp
    | cons y m ih =>
      obtain ⟨b, w⟩ := y
      have hc := List.pairwise_cons.1 hp
      unfold Memory.write
      split
      · next hlt =>
        split
        · exact hp
        · refine List.pairwise_cons.2 ⟨fun x hx => ?_, hp⟩
          rcases List.mem_cons.1 hx with rfl | hx
          · exact hlt
          · exact Nat.lt_trans hlt (hc.1 x hx)
      · split
        · next hab =>
          subst hab
          split
          · exact hc.2
          · exact List.pairwise_cons.2 hc
        · refine List.pairwise_cons.2 ⟨fun x hx => ?_, ih hc.2⟩
          rcases Memory.mem_write hx with hx | ⟨rfl, -⟩
          · exact hc.1 x hx
          · show b < a
            omega
  · rcases Memory.mem_write hx with hx | ⟨rfl, hv⟩
    · exact hm.2 x hx
    · exact hv

@[simp] theorem Memory.slice_length (m : Memory) (a n : Nat) : (m.slice a n).length = n := by
  simp [Memory.slice]

@[simp] theorem Memory.slice_getElem (m : Memory) (a n k : Nat) (h : k < (m.slice a n).length) :
    (m.slice a n)[k] = m.read (a + k) := by
  simp [Memory.slice]

/-- The geometry of a well-formed configuration: the image base is 4-aligned (P1) and inside the flash (P2). -/
theorem imgBase_spec {c : Config} {media : Media} {base : Nat} (hc : c.wf) (h : imgBase c media = some base) :
    base % 4 = 0 ∧ base ≤ c.flashEnd := by
  obtain ⟨-, h1, h2, h3, h4, -, -⟩ := hc
  cases media <;> simp only [imgBase, Option.some.injEq, reduceCtorEq] at h <;> subst h <;> omega

theorem imgBase_isSome {c : Config} {media : Media} (h : media ≠ .none) : ∃ base, imgBase c media = some base := by
  cases media <;> simp_all [imgBase]

end Sys2Proof.Machine
end

