-- ==== Sys2Proof/Laws/State.lean ====
section
/-! SUPPORT. What each state update does to each field: one lemma per update and field, so that no later
proof unfolds an update. -/

namespace Sys2Proof.Machine

/-! ### `State.setError` -/

@[simp] theorem State.setError_ler (s : State) : s.setError.ler = s.ler := rfl
@[simp] theorem State.setError_eal (s : State) : s.setError.eal = s.eal := rfl
@[simp] theorem State.setError_mode (s : State) : s.setError.mode = s.mode := rfl
@[simp] theorem State.setError_dir (s : State) : s.setError.dir = s.dir := rfl
@[simp] theorem State.setError_rxq (s : State) : s.setError.rxq = s.rxq := rfl
@[simp] theorem State.setError_txRem (s : State) : s.setError.txRem = s.txRem := rfl
@[simp] theorem State.setError_txActive (s : State) : s.setError.txActive = s.txActive := rfl
@[simp] theorem State.setError_err (s : State) : s.setError.err = true := rfl
@[simp] theorem State.setError_clkMask (s : State) : s.setError.clkMask = s.clkMask := rfl
@[simp] theorem State.setError_rstSense (s : State) : s.setError.rstSense = s.rstSense := rfl
@[simp] theorem State.setError_irqEnRst (s : State) : s.setError.irqEnRst = s.irqEnRst := rfl
@[simp] theorem State.setError_irqEnBrk (s : State) : s.setError.irqEnBrk = s.irqEnBrk := rfl
@[simp] theorem State.setError_irqEnDir (s : State) : s.setError.irqEnDir = s.irqEnDir := rfl
@[simp] theorem State.setError_pipeRxEn (s : State) : s.setError.pipeRxEn = s.pipeRxEn := rfl
@[simp] theorem State.setError_pipeTxEn (s : State) : s.setError.pipeTxEn = s.pipeTxEn := rfl
@[simp] theorem State.setError_pipePtEn (s : State) : s.setError.pipePtEn = s.pipePtEn := rfl
@[simp] theorem State.setError_dirPipe (s : State) : s.setError.dirPipe = s.dirPipe := rfl
@[simp] theorem State.setError_lineOvr (s : State) : s.setError.lineOvr = s.lineOvr := rfl
@[simp] theorem State.setError_out (s : State) : s.setError.out = s.out := rfl
@[simp] theorem State.setError_cfg (s : State) : s.setError.cfg = s.cfg := rfl
@[simp] theorem State.setError_media (s : State) : s.setError.media = s.media := rfl
@[simp] theorem State.setError_flash (s : State) : s.setError.flash = s.flash := rfl
@[simp] theorem State.setError_script (s : State) : s.setError.script = s.script := rfl
@[simp] theorem State.setError_draws (s : State) : s.setError.draws = s.draws := rfl

/-! ### `State.clearError` -/

@[simp] theorem State.clearError_ler (s : State) : s.clearError.ler = s.ler := rfl
@[simp] theorem State.clearError_eal (s : State) : s.clearError.eal = s.eal := rfl
@[simp] theorem State.clearError_mode (s : State) : s.clearError.mode = s.mode := rfl
@[simp] theorem State.clearError_dir (s : State) : s.clearError.dir = s.dir := rfl
@[simp] theorem State.clearError_rxq (s : State) : s.clearError.rxq = s.rxq := rfl
@[simp] theorem State.clearError_txRem (s : State) : s.clearError.txRem = s.txRem := rfl
@[simp] theorem State.clearError_txActive (s : State) : s.clearError.txActive = s.txActive := rfl
@[simp] theorem State.clearError_err (s : State) : s.clearError.err = false := rfl
@[simp] theorem State.clearError_clkMask (s : State) : s.clearError.clkMask = s.clkMask := rfl
@[simp] theorem State.clearError_rstSense (s : State) : s.clearError.rstSense = s.rstSense := rfl
@[simp] theorem State.clearError_irqEnRst (s : State) : s.clearError.irqEnRst = s.irqEnRst := rfl
@[simp] theorem State.clearError_irqEnBrk (s : State) : s.clearError.irqEnBrk = s.irqEnBrk := rfl
@[simp] theorem State.clearError_irqEnDir (s : State) : s.clearError.irqEnDir = s.irqEnDir := rfl
@[simp] theorem State.clearError_pipeRxEn (s : State) : s.clearError.pipeRxEn = s.pipeRxEn := rfl
@[simp] theorem State.clearError_pipeTxEn (s : State) : s.clearError.pipeTxEn = s.pipeTxEn := rfl
@[simp] theorem State.clearError_pipePtEn (s : State) : s.clearError.pipePtEn = s.pipePtEn := rfl
@[simp] theorem State.clearError_dirPipe (s : State) : s.clearError.dirPipe = s.dirPipe := rfl
@[simp] theorem State.clearError_lineOvr (s : State) : s.clearError.lineOvr = s.lineOvr := rfl
@[simp] theorem State.clearError_out (s : State) : s.clearError.out = s.out := rfl
@[simp] theorem State.clearError_cfg (s : State) : s.clearError.cfg = s.cfg := rfl
@[simp] theorem State.clearError_media (s : State) : s.clearError.media = s.media := rfl
@[simp] theorem State.clearError_flash (s : State) : s.clearError.flash = s.flash := rfl
@[simp] theorem State.clearError_script (s : State) : s.clearError.script = s.script := rfl
@[simp] theorem State.clearError_draws (s : State) : s.clearError.draws = s.draws := rfl

/-! ### `State.markEmulation` -/

@[simp] theorem State.markEmulation_ler (s : State) : s.markEmulation.ler = s.ler := rfl
@[simp] theorem State.markEmulation_eal (s : State) : s.markEmulation.eal = true := rfl
@[simp] theorem State.markEmulation_mode (s : State) : s.markEmulation.mode = s.mode := rfl
@[simp] theorem State.markEmulation_dir (s : State) : s.markEmulation.dir = s.dir := rfl
@[simp] theorem State.markEmulation_rxq (s : State) : s.markEmulation.rxq = s.rxq := rfl
@[simp] theorem State.markEmulation_txRem (s : State) : s.markEmulation.txRem = s.txRem := rfl
@[simp] theorem State.markEmulation_txActive (s : State) : s.markEmulation.txActive = s.txActive := rfl
@[simp] theorem State.markEmulation_err (s : State) : s.markEmulation.err = s.err := rfl
@[simp] theorem State.markEmulation_clkMask (s : State) : s.markEmulation.clkMask = s.clkMask := rfl
@[simp] theorem State.markEmulation_rstSense (s : State) : s.markEmulation.rstSense = s.rstSense := rfl
@[simp] theorem State.markEmulation_irqEnRst (s : State) : s.markEmulation.irqEnRst = s.irqEnRst := rfl
@[simp] theorem State.markEmulation_irqEnBrk (s : State) : s.markEmulation.irqEnBrk = s.irqEnBrk := rfl
@[simp] theorem State.markEmulation_irqEnDir (s : State) : s.markEmulation.irqEnDir = s.irqEnDir := rfl
@[simp] theorem State.markEmulation_pipeRxEn (s : State) : s.markEmulation.pipeRxEn = s.pipeRxEn := rfl
@[simp] theorem State.markEmulation_pipeTxEn (s : State) : s.markEmulation.pipeTxEn = s.pipeTxEn := rfl
@[simp] theorem State.markEmulation_pipePtEn (s : State) : s.markEmulation.pipePtEn = s.pipePtEn := rfl
@[simp] theorem State.markEmulation_dirPipe (s : State) : s.markEmulation.dirPipe = s.dirPipe := rfl
@[simp] theorem State.markEmulation_lineOvr (s : State) : s.markEmulation.lineOvr = s.lineOvr := rfl
@[simp] theorem State.markEmulation_out (s : State) : s.markEmulation.out = s.out := rfl
@[simp] theorem State.markEmulation_cfg (s : State) : s.markEmulation.cfg = s.cfg := rfl
@[simp] theorem State.markEmulation_media (s : State) : s.markEmulation.media = s.media := rfl
@[simp] theorem State.markEmulation_flash (s : State) : s.markEmulation.flash = s.flash := rfl
@[simp] theorem State.markEmulation_script (s : State) : s.markEmulation.script = s.script := rfl
@[simp] theorem State.markEmulation_draws (s : State) : s.markEmulation.draws = s.draws := rfl

/-! ### `State.raiseDriveError` -/

@[simp] theorem State.raiseDriveError_ler (v : Sense) (s : State) : (s.raiseDriveError v).ler = v := rfl
@[simp] theorem State.raiseDriveError_eal (v : Sense) (s : State) : (s.raiseDriveError v).eal = s.eal := rfl
@[simp] theorem State.raiseDriveError_mode (v : Sense) (s : State) : (s.raiseDriveError v).mode = s.mode := rfl
@[simp] theorem State.raiseDriveError_dir (v : Sense) (s : State) : (s.raiseDriveError v).dir = s.dir := rfl
@[simp] theorem State.raiseDriveError_rxq (v : Sense) (s : State) : (s.raiseDriveError v).rxq = s.rxq := rfl
@[simp] theorem State.raiseDriveError_txRem (v : Sense) (s : State) : (s.raiseDriveError v).txRem = s.txRem := rfl
@[simp] theorem State.raiseDriveError_txActive (v : Sense) (s : State) : (s.raiseDriveError v).txActive = s.txActive := rfl
@[simp] theorem State.raiseDriveError_err (v : Sense) (s : State) : (s.raiseDriveError v).err = true := rfl
@[simp] theorem State.raiseDriveError_clkMask (v : Sense) (s : State) : (s.raiseDriveError v).clkMask = s.clkMask := rfl
@[simp] theorem State.raiseDriveError_rstSense (v : Sense) (s : State) : (s.raiseDriveError v).rstSense = s.rstSense := rfl
@[simp] theorem State.raiseDriveError_irqEnRst (v : Sense) (s : State) : (s.raiseDriveError v).irqEnRst = s.irqEnRst := rfl
@[simp] theorem State.raiseDriveError_irqEnBrk (v : Sense) (s : State) : (s.raiseDriveError v).irqEnBrk = s.irqEnBrk := rfl
@[simp] theorem State.raiseDriveError_irqEnDir (v : Sense) (s : State) : (s.raiseDriveError v).irqEnDir = s.irqEnDir := rfl
@[simp] theorem State.raiseDriveError_pipeRxEn (v : Sense) (s : State) : (s.raiseDriveError v).pipeRxEn = s.pipeRxEn := rfl
@[simp] theorem State.raiseDriveError_pipeTxEn (v : Sense) (s : State) : (s.raiseDriveError v).pipeTxEn = s.pipeTxEn := rfl
@[simp] theorem State.raiseDriveError_pipePtEn (v : Sense) (s : State) : (s.raiseDriveError v).pipePtEn = s.pipePtEn := rfl
@[simp] theorem State.raiseDriveError_dirPipe (v : Sense) (s : State) : (s.raiseDriveError v).dirPipe = s.dirPipe := rfl
@[simp] theorem State.raiseDriveError_lineOvr (v : Sense) (s : State) : (s.raiseDriveError v).lineOvr = s.lineOvr := rfl
@[simp] theorem State.raiseDriveError_out (v : Sense) (s : State) : (s.raiseDriveError v).out = s.out := rfl
@[simp] theorem State.raiseDriveError_cfg (v : Sense) (s : State) : (s.raiseDriveError v).cfg = s.cfg := rfl
@[simp] theorem State.raiseDriveError_media (v : Sense) (s : State) : (s.raiseDriveError v).media = s.media := rfl
@[simp] theorem State.raiseDriveError_flash (v : Sense) (s : State) : (s.raiseDriveError v).flash = s.flash := rfl
@[simp] theorem State.raiseDriveError_script (v : Sense) (s : State) : (s.raiseDriveError v).script = s.script := rfl
@[simp] theorem State.raiseDriveError_draws (v : Sense) (s : State) : (s.raiseDriveError v).draws = s.draws := rfl

/-! ### `State.rxReset` -/

@[simp] theorem State.rxReset_ler (s : State) : s.rxReset.ler = s.ler := rfl
@[simp] theorem State.rxReset_eal (s : State) : s.rxReset.eal = s.eal := rfl
@[simp] theorem State.rxReset_mode (s : State) : s.rxReset.mode = s.mode := rfl
@[simp] theorem State.rxReset_dir (s : State) : s.rxReset.dir = s.dir := rfl
@[simp] theorem State.rxReset_rxq (s : State) : s.rxReset.rxq = [] := rfl
@[simp] theorem State.rxReset_txRem (s : State) : s.rxReset.txRem = s.txRem := rfl
@[simp] theorem State.rxReset_txActive (s : State) : s.rxReset.txActive = s.txActive := rfl
@[simp] theorem State.rxReset_err (s : State) : s.rxReset.err = s.err := rfl
@[simp] theorem State.rxReset_clkMask (s : State) : s.rxReset.clkMask = s.clkMask := rfl
@[simp] theorem State.rxReset_rstSense (s : State) : s.rxReset.rstSense = s.rstSense := rfl
@[simp] theorem State.rxReset_irqEnRst (s : State) : s.rxReset.irqEnRst = s.irqEnRst := rfl
@[simp] theorem State.rxReset_irqEnBrk (s : State) : s.rxReset.irqEnBrk = s.irqEnBrk := rfl
@[simp] theorem State.rxReset_irqEnDir (s : State) : s.rxReset.irqEnDir = s.irqEnDir := rfl
@[simp] theorem State.rxReset_pipeRxEn (s : State) : s.rxReset.pipeRxEn = s.pipeRxEn := rfl
@[simp] theorem State.rxReset_pipeTxEn (s : State) : s.rxReset.pipeTxEn = s.pipeTxEn := rfl
@[simp] theorem State.rxReset_pipePtEn (s : State) : s.rxReset.pipePtEn = s.pipePtEn := rfl
@[simp] theorem State.rxReset_dirPipe (s : State) : s.rxReset.dirPipe = s.dirPipe := rfl
@[simp] theorem State.rxReset_lineOvr (s : State) : s.rxReset.lineOvr = s.lineOvr := rfl
@[simp] theorem State.rxReset_out (s : State) : s.rxReset.out = s.out := rfl
@[simp] theorem State.rxReset_cfg (s : State) : s.rxReset.cfg = s.cfg := rfl
@[simp] theorem State.rxReset_media (s : State) : s.rxReset.media = s.media := rfl
@[simp] theorem State.rxReset_flash (s : State) : s.rxReset.flash = s.flash := rfl
@[simp] theorem State.rxReset_script (s : State) : s.rxReset.script = s.script := rfl
@[simp] theorem State.rxReset_draws (s : State) : s.rxReset.draws = s.draws := rfl

/-! ### `State.abortFrame` -/

@[simp] theorem State.abortFrame_ler (s : State) : s.abortFrame.ler = s.ler := rfl
@[simp] theorem State.abortFrame_eal (s : State) : s.abortFrame.eal = s.eal := rfl
@[simp] theorem State.abortFrame_mode (s : State) : s.abortFrame.mode = s.mode := rfl
@[simp] theorem State.abortFrame_dir (s : State) : s.abortFrame.dir = s.dir := rfl
@[simp] theorem State.abortFrame_rxq (s : State) : s.abortFrame.rxq = s.rxq := rfl
@[simp] theorem State.abortFrame_txRem (s : State) : s.abortFrame.txRem = [] := rfl
@[simp] theorem State.abortFrame_txActive (s : State) : s.abortFrame.txActive = false := rfl
@[simp] theorem State.abortFrame_err (s : State) : s.abortFrame.err = s.err := rfl
@[simp] theorem State.abortFrame_clkMask (s : State) : s.abortFrame.clkMask = s.clkMask := rfl
@[simp] theorem State.abortFrame_rstSense (s : State) : s.abortFrame.rstSense = s.rstSense := rfl
@[simp] theorem State.abortFrame_irqEnRst (s : State) : s.abortFrame.irqEnRst = s.irqEnRst := rfl
@[simp] theorem State.abortFrame_irqEnBrk (s : State) : s.abortFrame.irqEnBrk = s.irqEnBrk := rfl
@[simp] theorem State.abortFrame_irqEnDir (s : State) : s.abortFrame.irqEnDir = s.irqEnDir := rfl
@[simp] theorem State.abortFrame_pipeRxEn (s : State) : s.abortFrame.pipeRxEn = s.pipeRxEn := rfl
@[simp] theorem State.abortFrame_pipeTxEn (s : State) : s.abortFrame.pipeTxEn = s.pipeTxEn := rfl
@[simp] theorem State.abortFrame_pipePtEn (s : State) : s.abortFrame.pipePtEn = s.pipePtEn := rfl
@[simp] theorem State.abortFrame_dirPipe (s : State) : s.abortFrame.dirPipe = s.dirPipe := rfl
@[simp] theorem State.abortFrame_lineOvr (s : State) : s.abortFrame.lineOvr = s.lineOvr := rfl
@[simp] theorem State.abortFrame_out (s : State) : s.abortFrame.out = s.out := rfl
@[simp] theorem State.abortFrame_cfg (s : State) : s.abortFrame.cfg = s.cfg := rfl
@[simp] theorem State.abortFrame_media (s : State) : s.abortFrame.media = s.media := rfl
@[simp] theorem State.abortFrame_flash (s : State) : s.abortFrame.flash = s.flash := rfl
@[simp] theorem State.abortFrame_script (s : State) : s.abortFrame.script = s.script := rfl
@[simp] theorem State.abortFrame_draws (s : State) : s.abortFrame.draws = s.draws := rfl

/-! ### `State.fullPipelineReset` -/

@[simp] theorem State.fullPipelineReset_ler (s : State) : s.fullPipelineReset.ler = s.ler := rfl
@[simp] theorem State.fullPipelineReset_eal (s : State) : s.fullPipelineReset.eal = s.eal := rfl
@[simp] theorem State.fullPipelineReset_mode (s : State) : s.fullPipelineReset.mode = s.mode := rfl
@[simp] theorem State.fullPipelineReset_dir (s : State) : s.fullPipelineReset.dir = .h2d := rfl
@[simp] theorem State.fullPipelineReset_rxq (s : State) : s.fullPipelineReset.rxq = [] := rfl
@[simp] theorem State.fullPipelineReset_txRem (s : State) : s.fullPipelineReset.txRem = [] := rfl
@[simp] theorem State.fullPipelineReset_txActive (s : State) : s.fullPipelineReset.txActive = false := rfl
@[simp] theorem State.fullPipelineReset_err (s : State) : s.fullPipelineReset.err = s.err := rfl
@[simp] theorem State.fullPipelineReset_clkMask (s : State) : s.fullPipelineReset.clkMask = s.clkMask := rfl
@[simp] theorem State.fullPipelineReset_rstSense (s : State) : s.fullPipelineReset.rstSense = s.rstSense := rfl
@[simp] theorem State.fullPipelineReset_irqEnRst (s : State) : s.fullPipelineReset.irqEnRst = s.irqEnRst := rfl
@[simp] theorem State.fullPipelineReset_irqEnBrk (s : State) : s.fullPipelineReset.irqEnBrk = s.irqEnBrk := rfl
@[simp] theorem State.fullPipelineReset_irqEnDir (s : State) : s.fullPipelineReset.irqEnDir = s.irqEnDir := rfl
@[simp] theorem State.fullPipelineReset_pipeRxEn (s : State) : s.fullPipelineReset.pipeRxEn = s.pipeRxEn := rfl
@[simp] theorem State.fullPipelineReset_pipeTxEn (s : State) : s.fullPipelineReset.pipeTxEn = s.pipeTxEn := rfl
@[simp] theorem State.fullPipelineReset_pipePtEn (s : State) : s.fullPipelineReset.pipePtEn = s.pipePtEn := rfl
@[simp] theorem State.fullPipelineReset_dirPipe (s : State) : s.fullPipelineReset.dirPipe = s.dirPipe := rfl
@[simp] theorem State.fullPipelineReset_lineOvr (s : State) : s.fullPipelineReset.lineOvr = s.lineOvr := rfl
@[simp] theorem State.fullPipelineReset_out (s : State) : s.fullPipelineReset.out = s.out := rfl
@[simp] theorem State.fullPipelineReset_cfg (s : State) : s.fullPipelineReset.cfg = s.cfg := rfl
@[simp] theorem State.fullPipelineReset_media (s : State) : s.fullPipelineReset.media = s.media := rfl
@[simp] theorem State.fullPipelineReset_flash (s : State) : s.fullPipelineReset.flash = s.flash := rfl
@[simp] theorem State.fullPipelineReset_script (s : State) : s.fullPipelineReset.script = s.script := rfl
@[simp] theorem State.fullPipelineReset_draws (s : State) : s.fullPipelineReset.draws = s.draws := rfl

/-! ### `State.enablePassthrough` -/

@[simp] theorem State.enablePassthrough_ler (s : State) : s.enablePassthrough.ler = s.ler := rfl
@[simp] theorem State.enablePassthrough_eal (s : State) : s.enablePassthrough.eal = s.eal := rfl
@[simp] theorem State.enablePassthrough_mode (s : State) : s.enablePassthrough.mode = .passthrough := rfl
@[simp] theorem State.enablePassthrough_dir (s : State) : s.enablePassthrough.dir = s.dir := rfl
@[simp] theorem State.enablePassthrough_rxq (s : State) : s.enablePassthrough.rxq = s.rxq := rfl
@[simp] theorem State.enablePassthrough_txRem (s : State) : s.enablePassthrough.txRem = s.txRem := rfl
@[simp] theorem State.enablePassthrough_txActive (s : State) : s.enablePassthrough.txActive = s.txActive := rfl
@[simp] theorem State.enablePassthrough_err (s : State) : s.enablePassthrough.err = s.err := rfl
@[simp] theorem State.enablePassthrough_clkMask (s : State) : s.enablePassthrough.clkMask = s.clkMask := rfl
@[simp] theorem State.enablePassthrough_rstSense (s : State) : s.enablePassthrough.rstSense = s.rstSense := rfl
@[simp] theorem State.enablePassthrough_irqEnRst (s : State) : s.enablePassthrough.irqEnRst = false := rfl
@[simp] theorem State.enablePassthrough_irqEnBrk (s : State) : s.enablePassthrough.irqEnBrk = false := rfl
@[simp] theorem State.enablePassthrough_irqEnDir (s : State) : s.enablePassthrough.irqEnDir = false := rfl
@[simp] theorem State.enablePassthrough_pipeRxEn (s : State) : s.enablePassthrough.pipeRxEn = false := rfl
@[simp] theorem State.enablePassthrough_pipeTxEn (s : State) : s.enablePassthrough.pipeTxEn = false := rfl
@[simp] theorem State.enablePassthrough_pipePtEn (s : State) : s.enablePassthrough.pipePtEn = true := rfl
@[simp] theorem State.enablePassthrough_dirPipe (s : State) : s.enablePassthrough.dirPipe = .bypass := rfl
@[simp] theorem State.enablePassthrough_lineOvr (s : State) : s.enablePassthrough.lineOvr = false := rfl
@[simp] theorem State.enablePassthrough_out (s : State) : s.enablePassthrough.out = s.out := rfl
@[simp] theorem State.enablePassthrough_cfg (s : State) : s.enablePassthrough.cfg = s.cfg := rfl
@[simp] theorem State.enablePassthrough_media (s : State) : s.enablePassthrough.media = s.media := rfl
@[simp] theorem State.enablePassthrough_flash (s : State) : s.enablePassthrough.flash = s.flash := rfl
@[simp] theorem State.enablePassthrough_script (s : State) : s.enablePassthrough.script = s.script := rfl
@[simp] theorem State.enablePassthrough_draws (s : State) : s.enablePassthrough.draws = s.draws := rfl

/-! ### `State.turnOutgoing` -/

@[simp] theorem State.turnOutgoing_ler (s : State) : s.turnOutgoing.ler = s.ler := rfl
@[simp] theorem State.turnOutgoing_eal (s : State) : s.turnOutgoing.eal = s.eal := rfl
@[simp] theorem State.turnOutgoing_mode (s : State) : s.turnOutgoing.mode = s.mode := rfl
@[simp] theorem State.turnOutgoing_dir (s : State) : s.turnOutgoing.dir = .d2h := rfl
@[simp] theorem State.turnOutgoing_rxq (s : State) : s.turnOutgoing.rxq = s.rxq := rfl
@[simp] theorem State.turnOutgoing_txRem (s : State) : s.turnOutgoing.txRem = s.txRem := rfl
@[simp] theorem State.turnOutgoing_txActive (s : State) : s.turnOutgoing.txActive = s.txActive := rfl
@[simp] theorem State.turnOutgoing_err (s : State) : s.turnOutgoing.err = s.err := rfl
@[simp] theorem State.turnOutgoing_clkMask (s : State) : s.turnOutgoing.clkMask = s.clkMask := rfl
@[simp] theorem State.turnOutgoing_rstSense (s : State) : s.turnOutgoing.rstSense = s.rstSense := rfl
@[simp] theorem State.turnOutgoing_irqEnRst (s : State) : s.turnOutgoing.irqEnRst = s.irqEnRst := rfl
@[simp] theorem State.turnOutgoing_irqEnBrk (s : State) : s.turnOutgoing.irqEnBrk = s.irqEnBrk := rfl
@[simp] theorem State.turnOutgoing_irqEnDir (s : State) : s.turnOutgoing.irqEnDir = s.irqEnDir := rfl
@[simp] theorem State.turnOutgoing_pipeRxEn (s : State) : s.turnOutgoing.pipeRxEn = s.pipeRxEn := rfl
@[simp] theorem State.turnOutgoing_pipeTxEn (s : State) : s.turnOutgoing.pipeTxEn = s.pipeTxEn := rfl
@[simp] theorem State.turnOutgoing_pipePtEn (s : State) : s.turnOutgoing.pipePtEn = s.pipePtEn := rfl
@[simp] theorem State.turnOutgoing_dirPipe (s : State) : s.turnOutgoing.dirPipe = s.dirPipe := rfl
@[simp] theorem State.turnOutgoing_lineOvr (s : State) : s.turnOutgoing.lineOvr = s.lineOvr := rfl
@[simp] theorem State.turnOutgoing_out (s : State) : s.turnOutgoing.out = s.out ++ [[]] := rfl
@[simp] theorem State.turnOutgoing_cfg (s : State) : s.turnOutgoing.cfg = s.cfg := rfl
@[simp] theorem State.turnOutgoing_media (s : State) : s.turnOutgoing.media = s.media := rfl
@[simp] theorem State.turnOutgoing_flash (s : State) : s.turnOutgoing.flash = s.flash := rfl
@[simp] theorem State.turnOutgoing_script (s : State) : s.turnOutgoing.script = s.script := rfl
@[simp] theorem State.turnOutgoing_draws (s : State) : s.turnOutgoing.draws = s.draws := rfl

/-! ### `State.bufferWord`: only `rxq` can change -/

@[simp] theorem State.bufferWord_ler (w : Word) (s : State) : (s.bufferWord w).ler = s.ler := by
  unfold State.bufferWord; split <;> rfl
@[simp] theorem State.bufferWord_eal (w : Word) (s : State) : (s.bufferWord w).eal = s.eal := by
  unfold State.bufferWord; split <;> rfl
@[simp] theorem State.bufferWord_mode (w : Word) (s : State) : (s.bufferWord w).mode = s.mode := by
  unfold State.bufferWord; split <;> rfl
@[simp] theorem State.bufferWord_dir (w : Word) (s : State) : (s.bufferWord w).dir = s.dir := by
  unfold State.bufferWord; split <;> rfl
@[simp] theorem State.bufferWord_txRem (w : Word) (s : State) : (s.bufferWord w).txRem = s.txRem := by
  unfold State.bufferWord; split <;> rfl
@[simp] theorem State.bufferWord_txActive (w : Word) (s : State) : (s.bufferWord w).txActive = s.txActive := by
  unfold State.bufferWord; split <;> rfl
@[simp] theorem State.bufferWord_err (w : Word) (s : State) : (s.bufferWord w).err = s.err := by
  unfold State.bufferWord; split <;> rfl
@[simp] theorem State.bufferWord_clkMask (w : Word) (s : State) : (s.bufferWord w).clkMask = s.clkMask := by
  unfold State.bufferWord; split <;> rfl
@[simp] theorem State.bufferWord_rstSense (w : Word) (s : State) : (s.bufferWord w).rstSense = s.rstSense := by
  unfold State.bufferWord; split <;> rfl
@[simp] theorem State.bufferWord_irqEnRst (w : Word) (s : State) : (s.bufferWord w).irqEnRst = s.irqEnRst := by
  unfold State.bufferWord; split <;> rfl
@[simp] theorem State.bufferWord_irqEnBrk (w : Word) (s : State) : (s.bufferWord w).irqEnBrk = s.irqEnBrk := by
  unfold State.bufferWord; split <;> rfl
@[simp] theorem State.bufferWord_irqEnDir (w : Word) (s : State) : (s.bufferWord w).irqEnDir = s.irqEnDir := by
  unfold State.bufferWord; split <;> rfl
@[simp] theorem State.bufferWord_pipeRxEn (w : Word) (s : State) : (s.bufferWord w).pipeRxEn = s.pipeRxEn := by
  unfold State.bufferWord; split <;> rfl
@[simp] theorem State.bufferWord_pipeTxEn (w : Word) (s : State) : (s.bufferWord w).pipeTxEn = s.pipeTxEn := by
  unfold State.bufferWord; split <;> rfl
@[simp] theorem State.bufferWord_pipePtEn (w : Word) (s : State) : (s.bufferWord w).pipePtEn = s.pipePtEn := by
  unfold State.bufferWord; split <;> rfl
@[simp] theorem State.bufferWord_dirPipe (w : Word) (s : State) : (s.bufferWord w).dirPipe = s.dirPipe := by
  unfold State.bufferWord; split <;> rfl
@[simp] theorem State.bufferWord_lineOvr (w : Word) (s : State) : (s.bufferWord w).lineOvr = s.lineOvr := by
  unfold State.bufferWord; split <;> rfl
@[simp] theorem State.bufferWord_out (w : Word) (s : State) : (s.bufferWord w).out = s.out := by
  unfold State.bufferWord; split <;> rfl
@[simp] theorem State.bufferWord_cfg (w : Word) (s : State) : (s.bufferWord w).cfg = s.cfg := by
  unfold State.bufferWord; split <;> rfl
@[simp] theorem State.bufferWord_media (w : Word) (s : State) : (s.bufferWord w).media = s.media := by
  unfold State.bufferWord; split <;> rfl
@[simp] theorem State.bufferWord_flash (w : Word) (s : State) : (s.bufferWord w).flash = s.flash := by
  unfold State.bufferWord; split <;> rfl
@[simp] theorem State.bufferWord_script (w : Word) (s : State) : (s.bufferWord w).script = s.script := by
  unfold State.bufferWord; split <;> rfl
@[simp] theorem State.bufferWord_draws (w : Word) (s : State) : (s.bufferWord w).draws = s.draws := by
  unfold State.bufferWord; split <;> rfl

theorem State.bufferWord_of_room (w : Word) (s : State) (h : s.rxq.length < s.cfg.rxDepth) :
    s.bufferWord w = { s with rxq := s.rxq ++ [w] } := if_pos h

theorem State.bufferWord_of_full (w : Word) (s : State) (h : s.cfg.rxDepth ≤ s.rxq.length) :
    s.bufferWord w = s := if_neg (by omega)

/-! ### `State.afterRequest`: only `rxq` can change -/

@[simp] theorem State.afterRequest_ler (s : State) : s.afterRequest.ler = s.ler := by
  unfold State.afterRequest; split <;> rfl
@[simp] theorem State.afterRequest_eal (s : State) : s.afterRequest.eal = s.eal := by
  unfold State.afterRequest; split <;> rfl
@[simp] theorem State.afterRequest_mode (s : State) : s.afterRequest.mode = s.mode := by
  unfold State.afterRequest; split <;> rfl
@[simp] theorem State.afterRequest_dir (s : State) : s.afterRequest.dir = s.dir := by
  unfold State.afterRequest; split <;> rfl
@[simp] theorem State.afterRequest_txRem (s : State) : s.afterRequest.txRem = s.txRem := by
  unfold State.afterRequest; split <;> rfl
@[simp] theorem State.afterRequest_txActive (s : State) : s.afterRequest.txActive = s.txActive := by
  unfold State.afterRequest; split <;> rfl
@[simp] theorem State.afterRequest_err (s : State) : s.afterRequest.err = s.err := by
  unfold State.afterRequest; split <;> rfl
@[simp] theorem State.afterRequest_clkMask (s : State) : s.afterRequest.clkMask = s.clkMask := by
  unfold State.afterRequest; split <;> rfl
@[simp] theorem State.afterRequest_rstSense (s : State) : s.afterRequest.rstSense = s.rstSense := by
  unfold State.afterRequest; split <;> rfl
@[simp] theorem State.afterRequest_irqEnRst (s : State) : s.afterRequest.irqEnRst = s.irqEnRst := by
  unfold State.afterRequest; split <;> rfl
@[simp] theorem State.afterRequest_irqEnBrk (s : State) : s.afterRequest.irqEnBrk = s.irqEnBrk := by
  unfold State.afterRequest; split <;> rfl
@[simp] theorem State.afterRequest_irqEnDir (s : State) : s.afterRequest.irqEnDir = s.irqEnDir := by
  unfold State.afterRequest; split <;> rfl
@[simp] theorem State.afterRequest_pipeRxEn (s : State) : s.afterRequest.pipeRxEn = s.pipeRxEn := by
  unfold State.afterRequest; split <;> rfl
@[simp] theorem State.afterRequest_pipeTxEn (s : State) : s.afterRequest.pipeTxEn = s.pipeTxEn := by
  unfold State.afterRequest; split <;> rfl
@[simp] theorem State.afterRequest_pipePtEn (s : State) : s.afterRequest.pipePtEn = s.pipePtEn := by
  unfold State.afterRequest; split <;> rfl
@[simp] theorem State.afterRequest_dirPipe (s : State) : s.afterRequest.dirPipe = s.dirPipe := by
  unfold State.afterRequest; split <;> rfl
@[simp] theorem State.afterRequest_lineOvr (s : State) : s.afterRequest.lineOvr = s.lineOvr := by
  unfold State.afterRequest; split <;> rfl
@[simp] theorem State.afterRequest_out (s : State) : s.afterRequest.out = s.out := by
  unfold State.afterRequest; split <;> rfl
@[simp] theorem State.afterRequest_cfg (s : State) : s.afterRequest.cfg = s.cfg := by
  unfold State.afterRequest; split <;> rfl
@[simp] theorem State.afterRequest_media (s : State) : s.afterRequest.media = s.media := by
  unfold State.afterRequest; split <;> rfl
@[simp] theorem State.afterRequest_flash (s : State) : s.afterRequest.flash = s.flash := by
  unfold State.afterRequest; split <;> rfl
@[simp] theorem State.afterRequest_script (s : State) : s.afterRequest.script = s.script := by
  unfold State.afterRequest; split <;> rfl
@[simp] theorem State.afterRequest_draws (s : State) : s.afterRequest.draws = s.draws := by
  unfold State.afterRequest; split <;> rfl

theorem State.afterRequest_of_update (s : State) (h : s.mode = .update) : s.afterRequest = s := by
  unfold State.afterRequest; rw [h]

theorem State.afterRequest_of_ne_update (s : State) (h : s.mode ≠ .update) : s.afterRequest = s.rxReset := by
  unfold State.afterRequest; split <;> simp_all

/-! ### `State.resetEntry`: passthrough or nothing -/

@[simp] theorem State.resetEntry_ler (s : State) : s.resetEntry.ler = s.ler := by
  unfold State.resetEntry; split <;> rfl
@[simp] theorem State.resetEntry_eal (s : State) : s.resetEntry.eal = s.eal := by
  unfold State.resetEntry; split <;> rfl
@[simp] theorem State.resetEntry_dir (s : State) : s.resetEntry.dir = s.dir := by
  unfold State.resetEntry; split <;> rfl
@[simp] theorem State.resetEntry_rxq (s : State) : s.resetEntry.rxq = s.rxq := by
  unfold State.resetEntry; split <;> rfl
@[simp] theorem State.resetEntry_txRem (s : State) : s.resetEntry.txRem = s.txRem := by
  unfold State.resetEntry; split <;> rfl
@[simp] theorem State.resetEntry_txActive (s : State) : s.resetEntry.txActive = s.txActive := by
  unfold State.resetEntry; split <;> rfl
@[simp] theorem State.resetEntry_err (s : State) : s.resetEntry.err = s.err := by
  unfold State.resetEntry; split <;> rfl
@[simp] theorem State.resetEntry_clkMask (s : State) : s.resetEntry.clkMask = s.clkMask := by
  unfold State.resetEntry; split <;> rfl
@[simp] theorem State.resetEntry_rstSense (s : State) : s.resetEntry.rstSense = s.rstSense := by
  unfold State.resetEntry; split <;> rfl
@[simp] theorem State.resetEntry_out (s : State) : s.resetEntry.out = s.out := by
  unfold State.resetEntry; split <;> rfl
@[simp] theorem State.resetEntry_cfg (s : State) : s.resetEntry.cfg = s.cfg := by
  unfold State.resetEntry; split <;> rfl
@[simp] theorem State.resetEntry_media (s : State) : s.resetEntry.media = s.media := by
  unfold State.resetEntry; split <;> rfl
@[simp] theorem State.resetEntry_flash (s : State) : s.resetEntry.flash = s.flash := by
  unfold State.resetEntry; split <;> rfl
@[simp] theorem State.resetEntry_script (s : State) : s.resetEntry.script = s.script := by
  unfold State.resetEntry; split <;> rfl
@[simp] theorem State.resetEntry_draws (s : State) : s.resetEntry.draws = s.draws := by
  unfold State.resetEntry; split <;> rfl

theorem State.resetEntry_of_eal (s : State) (h : s.eal = true) : s.resetEntry = s.enablePassthrough := if_pos h

theorem State.resetEntry_of_not_eal (s : State) (h : s.eal = false) : s.resetEntry = s := by
  unfold State.resetEntry; rw [h]; rfl

end Sys2Proof.Machine
end

