-- ==== Sys2Proof/Laws/Ops.lean ====
section
/-! SUPPORT. One lemma per shared operation and per event handler that says everything it can do when it
answers a next state; later proofs cite these instead of unfolding. -/

namespace Sys2Proof.Machine

/-! ## Driver operations -/

/-- All `send` can do: with an aligned frame and an idle send side it arms the channel, and else it answers no
next state. -/
theorem send_next_iff (src : Source) (bytes : List Byte) (s t : State) :
    send src bytes s = .next t ↔
      bytes.length % 4 = 0 ∧ src.aligned = true ∧ s.txRem = [] ∧
        t = { s with txRem := bytes, txActive := !bytes.isEmpty } := by
  unfold send
  split
  · next h =>
    cases hs : s.txRem with
    | nil => simp [h, eq_comm]
    | cons b bs => simp
  · next h => simp only [reduceCtorEq, false_iff]; tauto

/-- `send` from a fixed buffer on an idle send side. -/
theorem send_buffer (bytes : List Byte) (s : State) (hb : bytes.length % 4 = 0) (hs : s.txRem = []) :
    send .buffer bytes s = .next { s with txRem := bytes, txActive := !bytes.isEmpty } :=
  (send_next_iff _ _ _ _).2 ⟨hb, rfl, hs, rfl⟩

/-- `send` never faults. -/
theorem send_ne_fault (src : Source) (bytes : List Byte) (s : State) (f : Fault) : send src bytes s ≠ .fault f := by
  unfold send
  split
  · split <;> simp
  · simp

/-- A second frame while one is in flight is refused (D38). -/
theorem send_busy (src : Source) (bytes : List Byte) (s : State) (hb : bytes.length % 4 = 0)
    (ha : src.aligned = true) (hs : s.txRem ≠ []) : send src bytes s = .refused .sendBusy := by
  unfold send
  rw [if_pos ⟨hb, ha⟩]
  cases h : s.txRem with
  | nil => exact absurd h hs
  | cons b bs => rfl

@[simp] theorem blockBytes_length {n : Nat} (v : Vector Byte n) : (blockBytes v).length = n := by
  simp [blockBytes]

theorem blockBytes_eq_toList {n : Nat} (v : Vector Byte n) : blockBytes v = v.toList := by
  apply List.ext_getElem
  · simp
  · intro i h1 h2
    simp [blockBytes]

@[simp] theorem rspErr4_length (v : Sense) : (rspErr4 v).length = 4 := rfl

@[simp] theorem rspZero4_length : rspZero4.length = 4 := rfl

@[simp] theorem rspInq32_length (c : Config) : (rspInq32 c).length = 32 := blockBytes_length _

/-- The identity block is 4 or 32 bytes long (D14). -/
theorem rspId_length (c : Config) : (rspId c).length = 4 ∨ (rspId c).length = 32 := by
  unfold rspId
  cases c.f4IdBlock <;> simp

/-- The masked length is the length rounded down to a multiple of 32 (R76). -/
theorem maskedLength_eq (l : BitVec 32) : maskedLength l = l.toNat - l.toNat % 32 := by
  have h : l &&& 0xFFFFFFE0#32 = (l >>> 5) <<< 5 := by
    ext i hi
    interval_cases i <;> simp
  have hl := l.isLt
  have h2 : maskedLength l = l.toNat / 32 * 32 % 2 ^ 32 := by
    rw [maskedLength, h, BitVec.toNat_shiftLeft,
      BitVec.toNat_ushiftRight, Nat.shiftLeft_eq, Nat.shiftRight_eq_div_pow]
  omega

@[simp] theorem memRead_length (s : State) (base off n : Nat) : (memRead s base off n).length = n :=
  Memory.slice_length _ _ _

theorem appendToLast_concat (bytes f : List Byte) (fs : List (List Byte)) :
    appendToLast bytes (fs ++ [f]) = some (fs ++ [f ++ bytes]) := by
  induction fs with
  | nil => rfl
  | cons g fs ih =>
    cases fs with
    | nil => rfl
    | cons h fs => simpa [appendToLast] using ih

/-- `appendToLast` gives nothing only for no frames at all, and else changes the last frame only. -/
theorem appendToLast_eq_some {bytes : List Byte} {fs gs : List (List Byte)} (h : appendToLast bytes fs = some gs) :
    ∃ front f, fs = front ++ [f] ∧ gs = front ++ [f ++ bytes] := by
  rcases List.eq_nil_or_concat fs with rfl | ⟨front, f, rfl⟩
  · simp [appendToLast] at h
  · simp only [List.concat_eq_append] at h ⊢
    rw [appendToLast_concat] at h
    exact ⟨front, f, rfl, (Option.some.inj h).symm⟩

/-! ## Event handlers -/

/-- All `E_RXWORD` can do (R90): with the clock running the word is buffered; masked, a draw decides. -/
theorem onRxWord_next {w : Word} {s t : State} (h : onRxWord w s = .next t) :
    s.dir = .h2d ∧
      ((s.clkMask = false ∧ t = s.bufferWord w) ∨
        (s.clkMask = true ∧ Config.keepWord s.draws = true ∧
          t = ({ s with draws := s.draws + 1 } : State).bufferWord w) ∨
        (s.clkMask = true ∧ Config.keepWord s.draws = false ∧ t = { s with draws := s.draws + 1 })) := by
  unfold onRxWord at h
  split at h
  · cases h
  · next hd =>
    refine ⟨hd, ?_⟩
    split at h
    · next hc =>
      simp only [Host.Outcome.next.injEq] at h
      split at h
      · next hk => exact .inr (.inl ⟨hc, hk, h.symm⟩)
      · next hk => exact .inr (.inr ⟨hc, by simpa using hk, h.symm⟩)
    · next hc => exact .inl ⟨by simpa using hc, (Host.Outcome.next.inj h).symm⟩

/-- All `E_DIR_OUT` can do (R91): the decoded command's `request` runs on the turned state, and the receive
pipeline is reset unless the reboot was triggered. -/
theorem onDirOut_next {s t : State} (h : onDirOut s = .next t) :
    s.irqEnDir = true ∧ s.dir = .h2d ∧
      ∃ u, exec (decode s.cfg s.rxq) s.turnOutgoing = .next u ∧ t = u.afterRequest := by
  unfold onDirOut at h
  split at h
  · next hi =>
    split at h
    · cases h
    · next hd =>
      split at h
      · next u hu => exact ⟨hi, hd, u, hu, (Host.Outcome.next.inj h).symm⟩
      · cases h
      · cases h
  · cases h

/-- All `E_DIR_IN` can do (R94). -/
theorem onDirIn_next {s t : State} (h : onDirIn s = .next t) :
    s.irqEnDir = true ∧ s.dir = .d2h ∧
      t = { s with
        dir := .h2d, txRem := [], txActive := false, rxq := [],
        err := if s.cfg.errClearOnDirIn then false else s.err } := by
  unfold onDirIn at h
  split at h
  · next hi =>
    split at h
    · cases h
    · next hd =>
      refine ⟨hi, hd, (Host.Outcome.next.inj h).symm.trans ?_⟩
      split <;> rfl
  · cases h

/-- All `E_TXWORD` can do (R99): the next four bytes join the last frame. -/
theorem onTxWord_next {s t : State} (h : onTxWord s = .next t) :
    s.dir = .d2h ∧ s.clkMask = false ∧ 4 ≤ s.txRem.length ∧
      ∃ front f, s.out = front ++ [f] ∧
        t = { s with
          out := front ++ [f ++ s.txRem.take 4], txRem := s.txRem.drop 4,
          txActive := !(s.txRem.drop 4).isEmpty } := by
  unfold onTxWord at h
  split at h
  · cases h
  · next hd =>
    split at h
    · cases h
    · next hc =>
      split at h
      · cases h
      · next hl =>
        split at h
        · cases h
        · next out ho =>
          obtain ⟨front, f, h1, h2⟩ := appendToLast_eq_some ho
          refine ⟨hd, by simpa using hc, by omega, front, f, h1, ?_⟩
          rw [← h2, ← Host.Outcome.next.inj h]

/-- All `E_RST_ASSERT` can do (R95). -/
theorem onRstAssert_next {s t : State} (h : onRstAssert s = .next t) :
    s.irqEnRst = true ∧ s.rstSense = .waitAssert ∧
      t = { s with err := false, clkMask := true, rstSense := .waitRelease } := by
  unfold onRstAssert at h
  split at h
  · next hi =>
    split at h
    · cases h
    · next hr => exact ⟨hi, hr, (Host.Outcome.next.inj h).symm⟩
  · cases h

/-- All `E_RST_RELEASE` can do (R96). -/
theorem onRstRelease_next {s t : State} (h : onRstRelease s = .next t) :
    s.irqEnRst = true ∧ s.rstSense = .waitRelease ∧
      t = { s.fullPipelineReset.resetEntry with clkMask := false, rstSense := .waitAssert } := by
  unfold onRstRelease at h
  split at h
  · next hi =>
    split at h
    · cases h
    · next hr => exact ⟨hi, hr, (Host.Outcome.next.inj h).symm⟩
  · cases h

/-- All `E_BRK` can do (R97). -/
theorem onBrk_next {edge : Edge} {s t : State} (h : onBrk edge s = .next t) : s.irqEnBrk = true ∧ t = s := by
  unfold onBrk at h
  split at h
  · next hi => exact ⟨hi, (Host.Outcome.next.inj h).symm⟩
  · cases h

/-- All a transition can do: in `EMU`, idle when no event is pending, or handle the next event. -/
theorem transition_next {s t : State} (h : transition s = .next t) :
    s.mode = .emu ∧
      ((s.script = [] ∧ t = s) ∨
        ∃ e rest, s.script = e :: rest ∧ handle e { s with script := rest } = .next t) := by
  unfold transition at h
  split at h
  · cases h
  · cases h
  · next hm =>
    refine ⟨hm, ?_⟩
    split at h
    · next hs => exact .inl ⟨hs, (Host.Outcome.next.inj h).symm⟩
    · next e rest hs => exact .inr ⟨e, rest, hs, h⟩

/-- In `EMU` with a move pending, a transition is that move's handler. -/
theorem transition_of_script {s : State} {e : HostEvent} {rest : List HostEvent} (hm : s.mode = .emu)
    (hs : s.script = e :: rest) : transition s = handle e { s with script := rest } := by
  unfold transition
  rw [hm, hs]

end Sys2Proof.Machine
end

