-- ==== Sys2Proof/Laws/Exec.lean ====
section
/-! SUPPORT. What every command can do, said once: the state `exec` answers for each constructor, in terms of
the shared operations; and what the next step does after `State.withFetchWord`. -/

namespace Sys2Proof.Machine

/-- The state with a frame armed: what `send` leaves. -/
def State.armed (bytes : List Byte) (s : State) : State := { s with txRem := bytes, txActive := !bytes.isEmpty }

theorem send_eq_armed {src : Source} {bytes : List Byte} {s t : State} (h : send src bytes s = .next t) :
    s.txRem = [] ∧ t = s.armed bytes := by
  obtain ⟨-, -, hs, ht⟩ := (send_next_iff src bytes s t).1 h
  exact ⟨hs, ht⟩

theorem sendZero4_eq_armed {s t : State} (h : sendZero4 s = .next t) : s.txRem = [] ∧ t = s.armed rspZero4 :=
  send_eq_armed h

/-- Everything a READ can do: the latch is set, and the slice is armed or the lead-out error raised. -/
theorem execRead_next {a l : BitVec 32} {s t : State} (h : execRead a l s = .next t) :
    ∃ base, imgBase s.cfg s.media = some base ∧
      ((readFails s.cfg base a l = true ∧ t = s.markEmulation.raiseDriveError s.cfg.senseLeadOut) ∨
        (readFails s.cfg base a l = false ∧ s.txRem = [] ∧
          t = s.markEmulation.armed (memRead s base (byteOffset a) (maskedLength l)))) := by
  unfold execRead at h
  split at h
  · cases h
  · next base hb =>
    refine ⟨base, hb, ?_⟩
    dsimp only at h
    split at h
    · next hf => exact .inl ⟨hf, (Host.Outcome.next.inj h).symm⟩
    · next hf =>
      obtain ⟨hs, ht⟩ := send_eq_armed h
      exact .inr ⟨by simpa using hf, hs, ht⟩

/-- Everything REQUEST_ERROR can do. -/
theorem execRequestError_next {s t : State} (h : execRequestError s = .next t) :
    s.txRem = [] ∧ t = { s.armed (rspErr4 s.ler) with ler := 0 } := by
  unfold execRequestError at h
  split at h
  · next u hu =>
    obtain ⟨hs, rfl⟩ := send_eq_armed hu
    exact ⟨hs, (Host.Outcome.next.inj h).symm⟩
  · cases h
  · cases h

/-- What `exec` answers, constructor by constructor. -/
theorem exec_next {i : Instr} {s t : State} :
    exec i s = .next t →
    match i with
    | .absent _ => t = s.raiseDriveError s.cfg.senseNoCommand
    | .inquiry => s.txRem = [] ∧ t = s.armed (rspInq32 s.cfg)
    | .read a l =>
      ∃ base, imgBase s.cfg s.media = some base ∧
        ((readFails s.cfg base a l = true ∧ t = s.markEmulation.raiseDriveError s.cfg.senseLeadOut) ∨
          (readFails s.cfg base a l = false ∧ s.txRem = [] ∧
            t = s.markEmulation.armed (memRead s base (byteOffset a) (maskedLength l))))
    | .seek _ _ => s.txRem = [] ∧ t = s.armed rspZero4
    | .requestError => s.txRem = [] ∧ t = { s.armed (rspErr4 s.ler) with ler := 0 }
    | .stopMotor => s.txRem = [] ∧ t = s.armed rspZero4
    | .audioBufferConfig => s.txRem = [] ∧ t = s.armed rspZero4
    | .vendorIdentity => s.txRem = [] ∧ t = s.armed (rspId s.cfg)
    | .vendorUpdate => t = { s with mode := .update }
    | .vendorOther _ => t = s.raiseDriveError s.cfg.senseIllegal
    | .unknown _ => t = s.raiseDriveError s.cfg.senseIllegal := by
  intro h
  cases i with
  | absent n => exact (Host.Outcome.next.inj h).symm
  | inquiry => exact send_eq_armed h
  | read a l => exact execRead_next h
  | seek a l => exact sendZero4_eq_armed h
  | requestError => exact execRequestError_next h
  | stopMotor => exact sendZero4_eq_armed h
  | audioBufferConfig => exact sendZero4_eq_armed h
  | vendorIdentity => exact send_eq_armed h
  | vendorUpdate => exact (Host.Outcome.next.inj h).symm
  | vendorOther sub => exact (Host.Outcome.next.inj h).symm
  | unknown op => exact (Host.Outcome.next.inj h).symm

/-- The sourced constants of a well-formed configuration (R6, P12, P16, P20). -/
theorem Config.wf_constants {c : Config} (h : c.wf) :
    c.senseNoCommand = 0x040800 ∧ c.senseIllegal = 0x052000 ∧ c.senseLeadOut = 0x056300 ∧
      c.f4SubIndex = 1 ∧ c.wordPack = .little :=
  ⟨congrArg Constants.senseNoCommand h.1, congrArg Constants.senseIllegal h.1, congrArg Constants.senseLeadOut h.1,
    congrArg Constants.f4SubIndex h.1, congrArg Constants.wordPack h.1⟩

/-- After `State.withFetchWord` the next step dispatches exactly the command in the placed words, with no frame in
flight and an image to serve. -/
theorem step_withFetchWord (s : State) (nbits w : Nat) :
    step (s.withFetchWord nbits w) =
      match exec (decode s.cfg (tableWords s.cfg.wordPack nbits w))
        { (s.withFetchWord nbits w) with script := s.script, dir := .d2h, out := s.out ++ [[]] } with
      | .next t => .next t.afterRequest
      | .fault f => .fault f
      | .refused r => .refused r := rfl

end Sys2Proof.Machine
end

