-- ==== Sys2Proof/Laws/PerInstr.lean ====
section
/-! SUPPORT. Statements made per instruction: the family `EncodeLength` says that every command is as many
words on the bus as its row says (30_encoding.md R70, R80, R83). -/

namespace Sys2Proof.Laws.EncodeLength

/-- The encoding of a command has the command's word count, under every choice of parameters. -/
def Statement (i : Instr) : Prop := ∀ c : Config, (encode c i).length = i.wordCount

theorem absent (words : Nat) : Statement (.absent words) := fun _ => List.length_replicate

theorem inquiry : Statement .inquiry := fun _ => rfl

theorem read (a l : BitVec 32) : Statement (.read a l) := fun _ => rfl

theorem seek (a l : BitVec 32) : Statement (.seek a l) := fun _ => rfl

theorem requestError : Statement .requestError := fun _ => rfl

theorem stopMotor : Statement .stopMotor := fun _ => rfl

theorem audioBufferConfig : Statement .audioBufferConfig := fun _ => rfl

theorem vendorIdentity : Statement .vendorIdentity := fun _ => rfl

theorem vendorUpdate : Statement .vendorUpdate := fun _ => rfl

theorem vendorOther (sub : Byte) : Statement (.vendorOther sub) := fun _ => rfl

theorem unknown (op : Byte) : Statement (.unknown op) := fun _ => rfl

end Sys2Proof.Laws.EncodeLength
end

