-- ==== Sys2Proof/Laws/Step.lean ====
section
/-! SUPPORT. What a step can do, said once, event by event; and several steps taken one at a time. -/

namespace Sys2Proof.Machine

/-- Buffering a word touches the receive buffer only (R90). -/
theorem State.bufferWord_eq (w : Word) (s : State) : ∃ q, s.bufferWord w = { s with rxq := q } := by
  unfold State.bufferWord
  split
  · exact ⟨_, rfl⟩
  · exact ⟨s.rxq, rfl⟩

/-- The end of the outgoing handler touches the receive buffer only (R91). -/
theorem State.afterRequest_eq (s : State) : ∃ q, s.afterRequest = { s with rxq := q } := by
  unfold State.afterRequest
  split
  · exact ⟨s.rxq, rfl⟩
  · exact ⟨[], rfl⟩
  · exact ⟨[], rfl⟩

/-- Everything a step can do: idle, or exactly one event of R107 with its guard and its next state. -/
theorem step_next {s t : State} (h : step s = .next t) :
    s.mode = .emu ∧
      ((s.script = [] ∧ t = s) ∨
        ∃ rest,
          (∃ w, s.script = .rxWord w :: rest ∧ s.dir = .h2d ∧
            ((s.clkMask = false ∧ t = ({ s with script := rest } : State).bufferWord w) ∨
              (s.clkMask = true ∧ Config.keepWord s.draws = true ∧
                t = ({ s with script := rest, draws := s.draws + 1 } : State).bufferWord w) ∨
              (s.clkMask = true ∧ Config.keepWord s.draws = false ∧
                t = { s with script := rest, draws := s.draws + 1 }))) ∨
          (s.script = .dirOut :: rest ∧ s.irqEnDir = true ∧ s.dir = .h2d ∧
            ∃ u, exec (decode s.cfg s.rxq) { s with script := rest, dir := .d2h, out := s.out ++ [[]] } = .next u ∧
              t = u.afterRequest) ∨
          (s.script = .dirIn :: rest ∧ s.irqEnDir = true ∧ s.dir = .d2h ∧
            t = { s with
              script := rest, dir := .h2d, txRem := [], txActive := false, rxq := [],
              err := if s.cfg.errClearOnDirIn then false else s.err }) ∨
          (s.script = .txWord :: rest ∧ s.dir = .d2h ∧ s.clkMask = false ∧ 4 ≤ s.txRem.length ∧
            ∃ front f, s.out = front ++ [f] ∧
              t = { s with
                script := rest, out := front ++ [f ++ s.txRem.take 4], txRem := s.txRem.drop 4,
                txActive := !(s.txRem.drop 4).isEmpty }) ∨
          (s.script = .rstAssert :: rest ∧ s.irqEnRst = true ∧ s.rstSense = .waitAssert ∧
            t = { s with script := rest, err := false, clkMask := true, rstSense := .waitRelease }) ∨
          (s.script = .rstRelease :: rest ∧ s.irqEnRst = true ∧ s.rstSense = .waitRelease ∧ s.eal = false ∧
            t = { s with
              script := rest, rxq := [], txRem := [], txActive := false, dir := .h2d, clkMask := false,
              rstSense := .waitAssert }) ∨
          (s.script = .rstRelease :: rest ∧ s.irqEnRst = true ∧ s.rstSense = .waitRelease ∧ s.eal = true ∧
            t = { s with
              script := rest, rxq := [], txRem := [], txActive := false, dir := .h2d, clkMask := false,
              rstSense := .waitAssert, mode := .passthrough, irqEnRst := false, irqEnBrk := false,
              irqEnDir := false, dirPipe := .bypass, pipeRxEn := false, pipeTxEn := false, pipePtEn := true,
              lineOvr := false }) ∨
          ∃ edge, s.script = .brk edge :: rest ∧ s.irqEnBrk = true ∧ t = { s with script := rest }) := by
  obtain ⟨hm, ⟨hs, rfl⟩ | ⟨e, rest, hs, h⟩⟩ := transition_next h
  · exact ⟨hm, .inl ⟨hs, rfl⟩⟩
  refine ⟨hm, .inr ⟨rest, ?_⟩⟩
  cases e with
  | rxWord w => exact .inl ⟨w, hs, onRxWord_next h⟩
  | dirOut =>
    obtain ⟨hi, hd, u, hu, rfl⟩ := onDirOut_next h
    exact .inr (.inl ⟨hs, hi, hd, u, hu, rfl⟩)
  | dirIn =>
    obtain ⟨hi, hd, rfl⟩ := onDirIn_next h
    exact .inr (.inr (.inl ⟨hs, hi, hd, rfl⟩))
  | txWord =>
    obtain ⟨hd, hk, hl, front, f, ho, rfl⟩ := onTxWord_next h
    exact .inr (.inr (.inr (.inl ⟨hs, hd, hk, hl, front, f, ho, rfl⟩)))
  | rstAssert =>
    obtain ⟨hi, hr, rfl⟩ := onRstAssert_next h
    exact .inr (.inr (.inr (.inr (.inl ⟨hs, hi, hr, rfl⟩))))
  | rstRelease =>
    obtain ⟨hi, hr, rfl⟩ := onRstRelease_next h
    cases he : s.eal with
    | false =>
      rw [State.resetEntry_of_not_eal _ (by simp)]
      exact .inr (.inr (.inr (.inr (.inr (.inl ⟨hs, hi, hr, rfl,
        by simp [State.fullPipelineReset, State.rxReset, State.abortFrame]⟩)))))
    | true =>
      rw [State.resetEntry_of_eal _ (by simp)]
      exact .inr (.inr (.inr (.inr (.inr (.inr (.inl ⟨hs, hi, hr, rfl,
        by simp [State.enablePassthrough, State.fullPipelineReset, State.rxReset, State.abortFrame]⟩))))))
  | brk edge =>
    obtain ⟨hi, rfl⟩ := @onBrk_next edge _ _ h
    exact .inr (.inr (.inr (.inr (.inr (.inr (.inr ⟨edge, hs, hi, rfl⟩))))))

/-- The first of several steps. -/
theorem steps_succ_of_step {n : Nat} {s t : State} (h : step s = .next t) : steps (n + 1) s = steps n t := by
  rw [steps, h]

/-- `m + n` steps are `m` steps and then `n`. -/
theorem steps_add_of_steps {m n : Nat} {s t : State} (h : steps m s = .next t) :
    steps (m + n) s = steps n t := by
  induction m generalizing s with
  | zero => simp only [steps, Host.Outcome.next.injEq] at h; rw [h, Nat.zero_add]
  | succ m ih =>
    rw [steps] at h
    split at h
    · next u hu => rw [Nat.add_right_comm, steps_succ_of_step hu, ih h]
    · cases h
    · cases h

end Sys2Proof.Machine
end

