-- ==== Sys2Proof/Tests/Slice0.lean ====
section
/-! SUPPORT. Tests: the fixture F0 and the vectors of 95_test_vectors.md (their names stand in the docstrings),
and for every obligation with hypotheses a witness that meets them. -/

namespace Sys2Proof.Tests

open Sys2Proof.Machine

/-! ## Fixture F0 -/

/-- The OPEN parameters of F0, with geometry that gives `IMG_LEN = 0x1000` for a raw image. -/
def params0 : Params :=
  { payloadAddr := 0x100, hdrSize := 0x40, flashEnd := 0x1100, dolMinSize := 0x100,
    inquiryBlock := Vector.replicate 32 0, f4SubIdentity := 1, f4SubUpdate := 2,
    f4IdBlock := .short #v[0xAA, 0xBB, 0xCC, 0x01], rxDepth := 4, errClearOnDirIn := false,
    ptHwAvailable := true, busDataWidth := 8 }

def cfg0 : Config := { toParams := params0 }

/-- F0 with the other value of P17. -/
def cfgP17 : Config := { toParams := { params0 with errClearOnDirIn := true } }

/-- `Idle0` over a raw image whose bytes nothing is known of. -/
def idle : State := State.powerOnWith cfg0 .raw []

/-- `IMG[i] = i mod 256` for the image bytes below `n`. -/
def image (n : Nat) : Memory := (List.range n).map fun i => (0x100 + i, BitVec.ofNat 8 i)

/-- `Idle0` with these words captured and the bus about to turn. -/
def captured (q : List Word) : State := { idle with rxq := q, script := [.dirOut] }

/-- A frame of eight bytes in flight, nothing of it taken yet. -/
def sending : State :=
  { idle with dir := .d2h, txRem := [1, 2, 3, 4, 5, 6, 7, 8], txActive := true, out := [[]] }

/-- Bus reset asserted. -/
def inReset : State := { idle with clkMask := true, rstSense := .waitRelease }

/-- A part of the next state, if there is one. -/
def after {α : Type} (f : State → α) : Result → Option α
  | .next t => some (f t)
  | .fault _ => none
  | .refused _ => none

theorem cfg0_wf : cfg0.wf := by decide

theorem cfgP17_wf : cfgP17.wf := by decide

theorem idle_inv : idle.Inv :=
  ⟨cfg0_wf, Memory.wf_nil, by decide, by decide, by decide, by decide, by decide, by decide, by decide, by decide,
    by decide, by decide⟩

theorem sending_inv : sending.Inv :=
  ⟨cfg0_wf, Memory.wf_nil, by decide, by decide, by decide, by decide, by decide, by decide, by decide, by decide,
    by decide, by decide⟩

theorem inReset_inv : inReset.Inv :=
  ⟨cfg0_wf, Memory.wf_nil, by decide, by decide, by decide, by decide, by decide, by decide, by decide, by decide,
    by decide, by decide⟩

/-! ## WellFormed: an ill-formed term for each check, which the check refuses -/

theorem test_wf_absent_three_words : Instr.wf cfg0 (.absent 3) = false := by decide

theorem test_wf_vendor_other_defined_sub :
    Instr.wf cfg0 (.vendorOther 1) = false ∧ Instr.wf cfg0 (.vendorOther 2) = false := by decide

theorem test_wf_unknown_known_opcode :
    ∀ op ∈ ([0x12, 0xA8, 0xAB, 0xE0, 0xE3, 0xE4, 0xF4] : List Byte), Instr.wf cfg0 (.unknown op) = false := by decide

theorem test_wf_params :
    ¬ ({ params0 with payloadAddr := 0x102 } : Params).wf ∧ ¬ ({ params0 with f4SubUpdate := 1 } : Params).wf ∧
      ¬ ({ params0 with rxDepth := 2 } : Params).wf ∧ ¬ ({ params0 with hdrSize := 0x200 } : Params).wf := by decide

/-! ## Decoding: words written out from the spec's encodings -/

/-- V-TR-2: the words of `READ 0, 32` carry these twelve bytes. -/
theorem test_assemble :
    assemble cfg0 [0x000000A8, 0x00000000, 0x20000000] = some #v[0xA8, 0, 0, 0, 0, 0, 0, 0, 0, 0, 0, 0x20] := by decide

/-- V-ER-1: two words are ABSENT, whatever the first holds. -/
theorem test_decode_absent : decode cfg0 [0x000000A8, 0] = .absent 2 := by decide

/-- V-FX-2. -/
theorem test_decode_inquiry : decode cfg0 [0xFFFFFF12, 0xFFFFFFFF, 0xFFFFFFFF] = .inquiry := by decide

/-- V-RD-7. -/
theorem test_decode_read : decode cfg0 [0x000000A8, 0xF8FFFF3F, 0x40000000] = .read 0x3FFFFFF8 0x40 := by decide

/-- PG4, step 3. -/
theorem test_decode_seek : decode cfg0 [0x000000AB, 0x00010000, 0] = .seek 0x100 0 := by decide

/-- V-ER-4. -/
theorem test_decode_request_error : decode cfg0 [0x000000E0, 0, 0] = .requestError := by decide

/-- V-TR-5, PG8: the fourth word is not looked at. -/
theorem test_decode_stop_motor : decode cfg0 [0x000000E3, 0, 0, 0x000000A8] = .stopMotor := by decide

/-- V-FX-6. -/
theorem test_decode_audio_buffer_config : decode cfg0 [0x0A0001E4, 0, 0] = .audioBufferConfig := by decide

/-- V-VN-1. -/
theorem test_decode_vendor_identity : decode cfg0 [0x000001F4, 0, 0] = .vendorIdentity := by decide

/-- V-VN-2. -/
theorem test_decode_vendor_update : decode cfg0 [0x000002F4, 0, 0] = .vendorUpdate := by decide

/-- V-VN-4: only byte 1 selects. -/
theorem test_decode_vendor_other : decode cfg0 [0x020100F4, 0, 0] = .vendorOther 0 := by decide

/-- V-ER-2 and V-ER-3. -/
theorem test_decode_unknown :
    decode cfg0 [0x000000FF, 0, 0] = .unknown 0xFF ∧ decode cfg0 [0, 0, 0] = .unknown 0 := by decide

/-- V-RD-6 and V-FX-4: the words the encoder writes. -/
theorem test_encode :
    encode cfg0 (.read 0x40000000 0x20) = [0x000000A8, 0x00000040, 0x20000000] ∧
      encode cfg0 (.seek 0xFFFFFFFF 0) = [0x000000AB, 0xFFFFFFFF, 0] := by decide

/-- The table's number for `READ 1, 0x3F` has byte 0 most significant (30_encoding.md R86). -/
theorem test_table_words :
    tableWords .little 96 0xA8000000000000010000003F = [0x000000A8, 0x01000000, 0x3F000000] ∧
      tableWords .little 0 0 = [] := by decide

/-- A placed command is what the next step after reset dispatches (log 42). -/
theorem test_withFetchWord_runs :
    after (fun t => (t.ler, t.err, t.dir)) (step (State.reset.withFetchWord 96 0)) = some (0x052000, true, .d2h) := by
  decide

/-! ## Commands, one step each -/

/-- V-ER-1b. -/
theorem test_absent :
    after (fun t => (t.ler, t.err, t.out)) (step (captured [])) = some (0x040800, true, [[]]) := by decide

/-- V-FX-1. -/
theorem test_inquiry :
    after (fun t => (t.txRem, t.txActive, t.rxq)) (step (captured [0x00000012, 0, 0])) =
      some (List.replicate 32 0, true, []) := by decide

/-- V-RD-2: byte offset 4, the low five bits of the length dropped. -/
theorem test_read_slice :
    after (fun t => (t.txRem, t.eal, t.err))
        (step { captured [0x000000A8, 0x01000000, 0x3F000000] with flash := image 0x40 }) =
      some ((List.range 32).map (fun i => BitVec.ofNat 8 (i + 4)), true, false) := by decide

/-- V-RD-3 and V-RD-4: the range may end at the image's end and no further. -/
theorem test_read_bound :
    after (fun t => (t.eal, t.err, t.txActive, t.txRem.length)) (step (captured [0x000000A8, 0xF8030000, 0x20000000])) =
        some (true, false, true, 32) ∧
      after (fun t => (t.eal, t.err, t.ler, t.txRem)) (step (captured [0x000000A8, 0xF9030000, 0x20000000])) =
        some (true, true, 0x056300, []) := by decide

/-- V-RD-6 and V-RD-7: neither the shift nor the sum wraps. -/
theorem test_read_no_wrap :
    after (fun t => (t.err, t.ler)) (exec (.read 0x40000000 0x20) idle) = some (true, 0x056300) ∧
      after (fun t => (t.err, t.ler)) (exec (.read 0x3FFFFFF8 0x40) idle) = some (true, 0x056300) := by decide

/-- V-RD-11 and V-RD-12: an empty slice, at the image's end and past it. -/
theorem test_read_empty :
    after (fun t => (t.err, t.txRem, t.txActive)) (exec (.read 0x400 0) idle) = some (false, [], false) ∧
      after (fun t => (t.err, t.ler)) (exec (.read 0x401 0) idle) = some (true, 0x056300) := by decide

/-- V-FX-4. -/
theorem test_seek :
    after (fun t => (t.txRem, t.err, t.eal)) (exec (.seek 0xFFFFFFFF 0) idle) = some ([0, 0, 0, 0], false, false) := by
  decide

/-- V-ER-4. -/
theorem test_request_error :
    after (fun t => (t.txRem, t.ler, t.err)) (exec .requestError { idle with ler := 0x052000, err := true }) =
      some ([0x00, 0x05, 0x20, 0x00], 0, true) := by decide

/-- V-ER-9. -/
theorem test_request_error_bytes :
    after (fun t => (t.txRem, t.ler)) (exec .requestError { idle with ler := 0xFFFFFF }) =
      some ([0x00, 0xFF, 0xFF, 0xFF], 0) := by decide

/-- V-FX-7: a success leaves the recorded error. -/
theorem test_stop_motor :
    after (fun t => (t.txRem, t.ler, t.err)) (exec .stopMotor { idle with ler := 0x052000, err := true }) =
      some ([0, 0, 0, 0], 0x052000, true) := by decide

/-- V-FX-6. -/
theorem test_audio_buffer_config :
    after (fun t => (t.txRem, t.ler)) (step (captured [0x0A0001E4, 0, 0])) = some ([0, 0, 0, 0], 0) := by decide

/-- V-VN-1. -/
theorem test_vendor_identity :
    after (fun t => (t.txRem, t.err)) (step (captured [0x000001F4, 0, 0])) = some ([0xAA, 0xBB, 0xCC, 0x01], false) := by
  decide

/-- V-VN-2: the three words stay. -/
theorem test_vendor_update :
    after (fun t => (t.mode, t.rxq, t.out, t.txRem)) (step (captured [0x000002F4, 0, 0])) =
      some (.update, [0x000002F4, 0, 0], [[]], []) := by decide

/-- V-VN-3. -/
theorem test_vendor_other :
    after (fun t => (t.ler, t.err, t.eal, t.rxq)) (step (captured [0x000003F4, 0, 0])) =
      some (0x052000, true, false, []) := by decide

/-- V-ER-3. -/
theorem test_unknown :
    after (fun t => (t.ler, t.err, t.eal)) (step { captured [0, 0, 0] with eal := true }) =
      some (0x052000, true, true) := by decide

/-! ## Events -/

/-- V-TR-1 and V-TR-6. -/
theorem test_rx_word :
    after (fun t => t.rxq) (step { idle with script := [.rxWord 0x000000E3] }) = some [0x000000E3] ∧
      after (fun t => t.rxq) (step { idle with rxq := [1, 2, 3, 4], script := [.rxWord 5] }) = some [1, 2, 3, 4] := by
  decide

/-- V-TR-8 and V-TR-9. -/
theorem test_tx_word :
    after (fun t => (t.out, t.txRem, t.txActive))
        (step { sending with txRem := [0, 0, 0, 0], script := [.txWord] }) = some ([[0, 0, 0, 0]], [], false) ∧
      step { sending with txRem := [], txActive := false, script := [.txWord] } = .fault .txWait :=
  ⟨by decide, rfl⟩

/-- V-TR-11 and V-TR-24. -/
theorem test_dir_in :
    after (fun t => (t.dir, t.txRem, t.txActive, t.err)) (step { sending with err := true, script := [.dirIn] }) =
        some (.h2d, [], false, true) ∧
      after (fun t => t.err) (step { sending with err := true, cfg := cfgP17, script := [.dirIn] }) = some false := by
  decide

/-- V-TR-14. -/
theorem test_rst_assert :
    after (fun t => (t.clkMask, t.err, t.rstSense, t.txRem.length, t.dir))
        (step { sending with err := true, script := [.rstAssert] }) =
      some (true, false, .waitRelease, 8, .d2h) := by decide

/-- V-TR-16 and V-TR-17. -/
theorem test_rst_release :
    after (fun t => (t.mode, t.clkMask, t.dir)) (step { inReset with script := [.rstRelease] }) =
        some (.emu, false, .h2d) ∧
      after (fun t => (t.mode, t.clkMask, t.pipePtEn, t.irqEnRst)) (step { inReset with eal := true, script := [.rstRelease] }) =
        some (.passthrough, false, true, false) := by decide

/-! ## Media Resolver -/

/-- The fixture of the DOL vectors. -/
def cfgMedia : Config := { toParams := { params0 with flashEnd := 0x200100 } }

/-- A header with these fields (payload offset, value), every other byte zero. -/
def header (fields : List (Nat × Nat)) : Memory :=
  (List.range 0xE4).map fun i =>
    (0x100 + i,
      match fields.find? fun f => f.1 ≤ i && i < f.1 + 4 with
      | some f => BitVec.ofNat 8 (f.2 / 256 ^ (3 - (i - f.1)))
      | none => 0)

/-- The base header with these fields put before it, so that they win. -/
def base (fields : List (Nat × Nat)) : Memory :=
  header (fields ++ [(0x00, 0x100), (0x48, 0x80003100), (0x90, 0x2000), (0xE0, 0x80003100)])

/-- V-MR-1. -/
theorem test_media_magic : resolve cfgMedia (header [(0x1C, 0x3D9F33C2)]) = .raw := by decide +kernel

/-- V-MR-2, V-MR-7b and V-MR-9. -/
theorem test_media_wrapped :
    resolve cfgMedia (base []) = .wrapped ∧ resolve cfgMedia (base [(0xD8, 0x81300000)]) = .wrapped ∧
      resolve cfgMedia (base [(0x90, 0x1FFF00)]) = .wrapped := by decide +kernel

/-- V-MR-3, V-MR-4, V-MR-5, V-MR-6, V-MR-7, V-MR-8 and V-MR-10. -/
theorem test_media_rejected :
    resolve cfgMedia (base [(0xE0, 0x80003102)]) = .none ∧
      resolve cfgMedia (base [(0xE0, 0x81200000), (0x90, 0x1200000)]) = .none ∧
      resolve cfgMedia (base [(0x68, 0x00001000)]) = .none ∧
      resolve cfgMedia (base [(0xE0, 0x80005100)]) = .none ∧
      resolve cfgMedia (base [(0xD8, 0x7FFF0000)]) = .none ∧
      resolve cfgMedia (base [(0x90, 0x200000)]) = .none ∧
      resolve cfgMedia (header []) = .none := by decide +kernel

/-- V-MR-6b: segment 7 is a data segment. -/
theorem test_media_data_segment :
    resolve cfgMedia (header [(0x1C, 0x100), (0x64, 0x80003100), (0xAC, 0x2000), (0xE0, 0x80003100)]) = .none := by
  decide +kernel

/-! ## Memory -/

theorem test_memory_read_write :
    (Memory.write [] 5 0x7F).read 5 = 0x7F ∧ (Memory.write [] 5 0x7F).read 6 = Config.flashByte 6 :=
  ⟨Memory.read_write_self _ _ _ Memory.wf_nil, Memory.read_write_other _ _ _ _ Memory.wf_nil (by decide)⟩

/-- Writing what an unlisted address reads as lists nothing. -/
theorem test_memory_canonical : Memory.write [] 5 (Config.flashByte 5) = [] := by simp [Memory.write]

/-! ## Witnesses: for each obligation with hypotheses, operands and states that meet them -/

/-- The Command Block of three words. -/
def blk (w0 w1 w2 : Word) : Block := blockOfWords .little w0 w1 w2

/-- Every command, the fields at boundary values. -/
def commands : List Instr :=
  [.absent 0, .absent 2, .inquiry, .read 0 0x1F, .read 0x3F8 32, .read 0x3F9 32, .read 0xFFFFFFFF 0xFFFFFFFF,
    .seek 0 0, .seek 0xFFFFFFFF 0xFFFFFFFF, .requestError, .stopMotor, .audioBufferConfig, .vendorIdentity,
    .vendorUpdate, .vendorOther 0, .vendorOther 0xFF, .unknown 0, .unknown 0xFF]

/-- DecodeUndoesEncode, FieldsAssembleBigEndian, ImageGeometry, MagicSelectsRawImage. -/
theorem test_witness_well_formed : cfg0.wf ∧ ∀ i ∈ commands, i.wf cfg0 = true := by decide

/-- SpecVectorsDecode, last clause. -/
theorem test_witness_spec_vectors : params0.f4SubIdentity = 1 := rfl

/-- UnexaminedBytesChangeNothing: V-RD-13 against V-RD-1, V-VN-4 against the same with other don't-cares, V-FX-2
against V-FX-1. -/
theorem test_witness_unexamined :
    ∀ p ∈ [(blk 0xFFFFFFA8 0 0x20000000, blk 0x000000A8 0 0x20000000), (blk 0x020100F4 0 0, blk 0x000000F4 9 9),
        (blk 0xFFFFFF12 0xFFFFFFFF 0xFFFFFFFF, blk 0x00000012 0 0)],
      p.1[0] = p.2[0] ∧ (p.1[0] = 0xF4 → p.1[1] = p.2[1]) ∧
        (p.1[0] = 0xA8 → ∀ k : Fin 8, p.1[4 + k.val] = p.2[4 + k.val]) := by decide

/-- The block clauses of the command statements: a block for each opcode. -/
theorem test_witness_blocks :
    (blk 0x00000012 0 0)[0] = 0x12 ∧ (blk 0x000000A8 0 0)[0] = 0xA8 ∧ (blk 0x000000AB 0 0)[0] = 0xAB ∧
      (blk 0x000000E0 0 0)[0] = 0xE0 ∧ (blk 0x000000E3 0 0)[0] = 0xE3 ∧ (blk 0x000000E4 0 0)[0] = 0xE4 := by decide

/-- Their VENDOR clauses: each kind of sub-opcode, the other kind at the neighbours of the defined ones. -/
theorem test_witness_vendor_blocks :
    ((blk 0x000001F4 0 0)[0] = 0xF4 ∧ (blk 0x000001F4 0 0)[1] = cfg0.f4SubIdentity) ∧
      ((blk 0x000002F4 0 0)[0] = 0xF4 ∧ (blk 0x000002F4 0 0)[1] = cfg0.f4SubUpdate) ∧
      ((blk 0x000000F4 0 0)[0] = 0xF4 ∧ (blk 0x000000F4 0 0)[1] ≠ cfg0.f4SubIdentity ∧
        (blk 0x000000F4 0 0)[1] ≠ cfg0.f4SubUpdate) ∧
      ((blk 0x000003F4 0 0)[0] = 0xF4 ∧ (blk 0x000003F4 0 0)[1] ≠ cfg0.f4SubIdentity ∧
        (blk 0x000003F4 0 0)[1] ≠ cfg0.f4SubUpdate) :=
  ⟨by decide, by decide, by decide, by decide⟩

/-- Their UNKNOWN clause, at neighbours of known opcodes; and ABSENT's, at the longest short list. -/
theorem test_witness_unknown_blocks :
    (blk 0x00000011 0 0)[0] ∉ ([0x12, 0xA8, 0xAB, 0xE0, 0xE3, 0xE4, 0xF4] : List Byte) ∧
      (blk 0x000000F5 0 0)[0] ∉ ([0x12, 0xA8, 0xAB, 0xE0, 0xE3, 0xE4, 0xF4] : List Byte) ∧
      ([0xA8, 0] : List Word).length < 3 :=
  ⟨by decide, by decide, by decide⟩

/-- The commands that send: no frame in flight; ABSENT, UNKNOWN, VENDOR_OTHER: an admissible configuration. -/
theorem test_witness_command_results : idle.txRem = [] ∧ idle.cfg.wf := by decide

/-- What a READ asks of the image: its byte offset plus its masked length. -/
def readEnd (a l : BitVec 32) : Nat := a.toNat * 4 + (l.toNat - l.toNat % 32)

/-- ReadInBoundsSendsExactSlice: V-RD-3 (ends at the end), V-RD-11 (empty at the end), V-RD-9 (empty). -/
theorem test_witness_read_in_bounds :
    idle.cfg.wf ∧ imgBase idle.cfg idle.media = some 0x100 ∧ idle.txRem = [] ∧
      readEnd 0x3F8 32 ≤ idle.cfg.flashEnd - 0x100 ∧ readEnd 0x400 0 ≤ idle.cfg.flashEnd - 0x100 ∧
      readEnd 0 0x1F ≤ idle.cfg.flashEnd - 0x100 :=
  ⟨cfg0_wf, rfl, rfl, by decide, by decide, by decide⟩

/-- ReadOutOfBoundsRaisesLeadOut: V-RD-4, V-RD-12, V-RD-8. -/
theorem test_witness_read_out_of_bounds :
    idle.cfg.wf ∧ imgBase idle.cfg idle.media = some 0x100 ∧
      idle.cfg.flashEnd - 0x100 < readEnd 0x3F9 32 ∧ idle.cfg.flashEnd - 0x100 < readEnd 0x401 0 ∧
      idle.cfg.flashEnd - 0x100 < readEnd 0 0xFFFFFFFF :=
  ⟨cfg0_wf, rfl, by decide, by decide, by decide⟩

/-- DispatcherRefusals: a frame in flight with a READ in bounds; no valid media. -/
theorem test_witness_dispatcher_refusals :
    sending.cfg.wf ∧ sending.txRem ≠ [] ∧ imgBase sending.cfg sending.media = some 0x100 ∧
      readEnd 0 32 ≤ sending.cfg.flashEnd - 0x100 ∧
      (State.powerOnWith cfg0 .none []).media = .none := by decide

/-- CommandsChangeOnlyDispatcherState, RequestSendsOrFailsOrReboots, ErrorsRaisedCompletely,
SuccessLeavesErrorState, OnlyReadSetsLatch, ResponseLengths: every command answers a next state from a state with the
pin released and no frame in flight. -/
theorem test_witness_all_commands :
    idle.err = false ∧ idle.txRem = [] ∧ idle.cfg.wf ∧
      ∀ i ∈ commands, after (fun _ => ()) (exec i idle) = some () := by decide

/-- RequestSendsOrFailsOrReboots and SuccessLeavesErrorState with the pin asserted (V-FX-7, V-RD-14). -/
theorem test_witness_commands_pin_asserted :
    ∀ i ∈ commands, after (fun t => t.err) (exec i { idle with err := true }) = some true := by decide

/-- Their clauses for READ: an image, and a range that ends at its end and one past it. -/
theorem test_witness_read_either_side :
    imgBase idle.cfg idle.media = some 0x100 ∧ readEnd 0x3F8 32 ≤ idle.cfg.flashEnd - 0x100 ∧
      ¬ readEnd 0x3F9 32 ≤ idle.cfg.flashEnd - 0x100 := by decide

/-- DriveErrorEntry, second clause, for each command that fails. -/
theorem test_witness_drive_error :
    idle.err = false ∧
      ∀ i ∈ [.absent 2, .unknown 0, .vendorOther 0, .read 0x401 0],
        after (fun t => t.err) (exec i idle) = some true := by decide

/-- The start of RequestErrorDrains: a failing command, then two REQUEST_ERROR transactions. -/
def drainStart : State :=
  { captured [0x000000FF, 0, 0] with
    script := .dirOut :: (.dirIn :: ((encode cfg0 .requestError).map .rxWord ++ .dirOut ::
      (.dirIn :: ((encode cfg0 .requestError).map .rxWord ++ .dirOut :: [])))) }

theorem test_witness_drain_inv : drainStart.Inv :=
  ⟨cfg0_wf, Memory.wf_nil, by decide, by decide, by decide, by decide, by decide, by decide, by decide, by decide,
    by decide, by decide⟩

theorem test_witness_drain :
    drainStart.dir = .h2d ∧ drainStart.clkMask = false ∧ drainStart.err = false ∧
      after (fun t => t.err) (step drainStart) = some true := by decide

/-- StepRunsDecodedCommand, ShortTransactionIsMalformed (the longest short one), VendorUpdateStopsTheHandler. -/
theorem test_witness_dir_out :
    (captured [1, 2]).cfg.wf ∧ (captured [1, 2]).mode = .emu ∧ (captured [1, 2]).irqEnDir = true ∧
      (captured [1, 2]).dir = .h2d ∧ (captured [1, 2]).script = .dirOut :: [] ∧ (captured [1, 2]).rxq.length < 3 ∧
      decode cfg0 (captured [0x000002F4, 0, 0]).rxq = .vendorUpdate := by decide

/-- WordIsBufferedOrDropped: one word from full, full, and masked. -/
theorem test_witness_rx_word :
    ∀ s ∈ [{ idle with rxq := [1, 2, 3], script := [.rxWord 4] }, { idle with rxq := [1, 2, 3, 4], script := [.rxWord 4] },
        { inReset with script := [.rxWord 4] }],
      s.mode = .emu ∧ s.dir = .h2d ∧ s.script = .rxWord 4 :: [] ∧
        ((s.clkMask = false ∧ s.rxq.length < s.cfg.rxDepth) ∨ (s.clkMask = false ∧ s.cfg.rxDepth ≤ s.rxq.length) ∨
          s.clkMask = true) := by decide

/-- HostReclaimsBus and ErrorPinReleasedOnlyBy. -/
theorem test_witness_dir_in :
    sending.mode = .emu ∧ sending.irqEnDir = true ∧ sending.dir = .d2h ∧
      after (fun t => t.err) (step { sending with err := true, cfg := cfgP17, script := [.dirIn] }) = some false := by
  decide

/-- HostTakesNextWord: a word left, none left, masked. -/
theorem test_witness_tx_word :
    ∀ s ∈ [{ sending with script := [.txWord] }, { sending with txRem := [], script := [.txWord] },
        { sending with clkMask := true, script := [.txWord] }],
      s.mode = .emu ∧ s.dir = .d2h ∧ s.script = .txWord :: [] ∧ s.out = [] ++ [[]] ∧
        ((s.clkMask = false ∧ s.txRem = 1 :: 2 :: 3 :: 4 :: [5, 6, 7, 8]) ∨ (s.clkMask = false ∧ s.txRem = []) ∨
          s.clkMask = true) := by decide

/-- ResetAssertMasksClock, ResetReleaseClearsPipelines (either latch value), BreakChangesNothing. -/
theorem test_witness_reset_and_break :
    (idle.mode = .emu ∧ idle.irqEnRst = true ∧ idle.irqEnBrk = true ∧ idle.rstSense = .waitAssert) ∧
      ∀ latch : Bool, ({ inReset with eal := latch } : State).mode = .emu ∧
        ({ inReset with eal := latch } : State).irqEnRst = true ∧
        ({ inReset with eal := latch } : State).rstSense = .waitRelease := by decide

/-- IdleAndFinishedSteps: each mode. -/
theorem test_witness_modes :
    idle.mode = .emu ∧ idle.script = [] ∧ idle.enablePassthrough.mode = .passthrough ∧
      after (fun t => t.mode) (exec .vendorUpdate idle) = some .update := by decide

/-- ImpossibleHostMovesRefused: one state against the direction or phase of each move. -/
theorem test_witness_impossible_moves :
    (sending.mode = .emu ∧ sending.dir = .d2h ∧ sending.irqEnDir = true) ∧
      (idle.mode = .emu ∧ idle.dir = .h2d ∧ idle.irqEnDir = true ∧ idle.rstSense = .waitAssert ∧ idle.irqEnRst = true) ∧
      inReset.mode = .emu ∧ inReset.rstSense = .waitRelease ∧ inReset.irqEnRst = true := by decide

/-- A flash with the disc-image magic and one with a header that is rejected. -/
theorem test_witness_media :
    cfgMedia.wf ∧ resolve cfgMedia (header [(0x1C, 0x3D9F33C2)]) ≠ .none ∧ resolve cfgMedia (header []) = .none ∧
      resolve cfgMedia (header []) ≠ .raw ∧ resolve cfgMedia (base []) ≠ .raw := by decide +kernel

/-- InterruptEnables: a step with every enable off (outside the invariants), and a disabled event of each kind. -/
theorem test_witness_enables :
    after (fun t => t.irqEnRst)
        (step { idle with irqEnRst := false, irqEnBrk := false, irqEnDir := false, script := [.rxWord 0] }) = some false ∧
      ∀ e ∈ [.dirOut, .dirIn, .rstAssert, .rstRelease, .brk .rise, .brk .fall],
        step { idle with irqEnRst := false, irqEnBrk := false, irqEnDir := false, script := [e] } =
          .fault .irqDisabled := by
  refine ⟨by decide, ?_⟩
  simp only [List.forall_mem_cons]
  exact ⟨rfl, rfl, rfl, rfl, rfl, rfl, by simp⟩

/-- EnablePassthroughHandsOver: a command dispatched in passthrough (outside the invariants); ResetEntryPolicy: either
latch value. -/
theorem test_witness_passthrough :
    after (fun t => t.mode) (exec (.seek 0 0) idle.enablePassthrough) = some .passthrough ∧
      idle.eal = false ∧ idle.markEmulation.eal = true := by decide

/-- StepKeepsInvariant: a state of each phase, with a move that is served. -/
theorem test_witness_invariant_steps :
    idle.Inv ∧ sending.Inv ∧ inReset.Inv ∧ after (fun _ => ()) (step idle) = some () :=
  ⟨idle_inv, sending_inv, inReset_inv, by decide⟩

/-- PowerOnMeetsInvariant: a flash that may list a byte. -/
theorem test_witness_power_on : cfg0.wf ∧ Memory.wf (Memory.write [] 0x11C 0x3D) :=
  ⟨cfg0_wf, Memory.wf_write _ _ _ Memory.wf_nil⟩

/-- ModeTransitionsComplete, ImageNeverWritten, LatchNeverClears, WritersOfEachElement: a step of every kind. -/
theorem test_witness_steps :
    ∀ s ∈ [idle, captured [0x000002F4, 0, 0], captured [0x000000A8, 0, 0x20000000], { captured [] with eal := true },
        { idle with script := [.rxWord 0] }, { sending with script := [.dirIn] }, { sending with script := [.txWord] },
        { idle with err := true, script := [.rstAssert] }, { inReset with script := [.rstRelease] },
        { inReset with eal := true, script := [.rstRelease] }, { idle with script := [.brk .rise] }],
      after (fun _ => ()) (step s) = some () := by decide

/-- RegisterReadOnlyByRequestError: another move than REQUEST_ERROR's, one that steps, one that faults, one that is
refused. -/
theorem test_witness_register_unread :
    decode cfg0 (captured [0x000000FF, 0, 0]).rxq ≠ .requestError ∧
      after (fun _ => ()) (step (captured [0x000000FF, 0, 0])) = some () ∧
      step { sending with txRem := [], script := [.txWord] } = .fault .txWait ∧
      step { idle with script := [.dirIn] } = .refused .repeatedDirection :=
  ⟨by decide, by decide, rfl, rfl⟩

/-- BusResetKeepsRegisterAndLatch: either latch value, in the middle of a frame. -/
theorem test_witness_bus_reset :
    ∀ latch : Bool,
      let s : State := { sending with eal := latch, script := [.rstAssert, .rstRelease] }
      s.mode = .emu ∧ s.irqEnRst = true ∧ s.rstSense = .waitAssert := by decide

/-- HostReceivesFramePrefix: the whole frame of two words. -/
theorem test_witness_prefix :
    let s : State := { sending with script := List.replicate 2 .txWord ++ [] }
    s.mode = .emu ∧ s.dir = .d2h ∧ s.clkMask = false ∧ (s.txActive = true ↔ s.txRem ≠ []) ∧ s.out = [] ++ [[]] ∧
      4 * 2 ≤ s.txRem.length := by decide

/-- The start of ReadTransactionDeliversSlice: `READ 0x3F8, 32` of which all eight words are taken. -/
def readStart : State :=
  { idle with
    script := (encode cfg0 (.read 0x3F8 32)).map .rxWord ++ .dirOut :: (List.replicate 8 .txWord ++ .dirIn :: []) }

theorem test_witness_read_transaction_inv : readStart.Inv :=
  ⟨cfg0_wf, Memory.wf_nil, by decide, by decide, by decide, by decide, by decide, by decide, by decide, by decide,
    by decide, by decide⟩

theorem test_witness_read_transaction_idle : readStart.Idle := ⟨rfl, rfl, rfl, rfl, rfl⟩

theorem test_witness_read_transaction :
    imgBase readStart.cfg readStart.media = some 0x100 ∧
      readEnd 0x3F8 32 ≤ readStart.cfg.flashEnd - 0x100 ∧
      4 * 8 ≤ (32 : BitVec 32).toNat - (32 : BitVec 32).toNat % 32 := by decide

/-- EmulationAlwaysServesTheHost: both directions and both reset phases. -/
theorem test_witness_served :
    (idle.mode = .emu ∧ idle.dir = .h2d ∧ idle.rstSense = .waitAssert) ∧ (sending.mode = .emu ∧ sending.dir = .d2h) ∧
      inReset.mode = .emu ∧ inReset.rstSense = .waitRelease := by decide

end Sys2Proof.Tests
end

section
/-! SUPPORT. Which elements a dispatched command can write, what a step does to the interrupt enables, and
which enable an event needs (10_state.md R30). -/

namespace Sys2Proof.Machine

/-- A dispatched command writes the register, the latch, the mode, the send side and the error pin at most
(41_dispatch_fixed.md R121): every other field of the next state is the old one's by `rfl`. -/
theorem exec_writes_dispatcher_state {i : Instr} {s t : State} (h : exec i s = .next t) :
    ∃ ler eal mode txRem txActive err,
      t = { s with ler := ler, eal := eal, mode := mode, txRem := txRem, txActive := txActive, err := err } := by
  have hx := exec_next h
  cases i with
  | absent n => exact ⟨_, _, _, _, _, _, hx⟩
  | inquiry => exact ⟨_, _, _, _, _, _, hx.2⟩
  | read a l =>
    obtain ⟨base, -, ⟨-, ht⟩ | ⟨-, -, ht⟩⟩ := hx
    · exact ⟨_, _, _, _, _, _, ht⟩
    · exact ⟨_, _, _, _, _, _, ht⟩
  | seek a l => exact ⟨_, _, _, _, _, _, hx.2⟩
  | requestError => exact ⟨_, _, _, _, _, _, hx.2⟩
  | stopMotor => exact ⟨_, _, _, _, _, _, hx.2⟩
  | audioBufferConfig => exact ⟨_, _, _, _, _, _, hx.2⟩
  | vendorIdentity => exact ⟨_, _, _, _, _, _, hx.2⟩
  | vendorUpdate => exact ⟨_, _, _, _, _, _, hx⟩
  | vendorOther sub => exact ⟨_, _, _, _, _, _, hx⟩
  | unknown op => exact ⟨_, _, _, _, _, _, hx⟩

/-- A step leaves the three enables as they are, or it is the hand-over and writes all of them 0 (R30, R102). -/
theorem step_keeps_or_clears_enables {s t : State} (h : step s = .next t) :
    (t.irqEnRst = s.irqEnRst ∧ t.irqEnBrk = s.irqEnBrk ∧ t.irqEnDir = s.irqEnDir) ∨
      (t.irqEnRst = false ∧ t.irqEnBrk = false ∧ t.irqEnDir = false) := by
  obtain ⟨-, ⟨-, rfl⟩ | ⟨rest, hevent⟩⟩ := step_next h
  · exact .inl ⟨rfl, rfl, rfl⟩
  obtain hword | hout | hin | htx | hassert | hrelease | hhand | hbrk := hevent
  · obtain ⟨w, -, -, ⟨-, rfl⟩ | ⟨-, -, rfl⟩ | ⟨-, -, rfl⟩⟩ := hword
    · exact .inl (by simp)
    · exact .inl (by simp)
    · exact .inl ⟨rfl, rfl, rfl⟩
  · obtain ⟨-, -, -, u, hu, rfl⟩ := hout
    obtain ⟨_, _, _, _, _, _, rfl⟩ := exec_writes_dispatcher_state hu
    exact .inl (by simp)
  · obtain ⟨-, -, -, rfl⟩ := hin
    exact .inl ⟨rfl, rfl, rfl⟩
  · obtain ⟨-, -, -, -, -, -, -, rfl⟩ := htx
    exact .inl ⟨rfl, rfl, rfl⟩
  · obtain ⟨-, -, -, rfl⟩ := hassert
    exact .inl ⟨rfl, rfl, rfl⟩
  · obtain ⟨-, -, -, -, rfl⟩ := hrelease
    exact .inl ⟨rfl, rfl, rfl⟩
  · obtain ⟨-, -, -, -, rfl⟩ := hhand
    exact .inr ⟨rfl, rfl, rfl⟩
  · obtain ⟨_, -, -, rfl⟩ := hbrk
    exact .inl ⟨rfl, rfl, rfl⟩

/-- The enable of an event's handler (R30); the two word events have none. -/
def State.eventEnable (s : State) : HostEvent → Bool
  | .rxWord _ => true
  | .txWord => true
  | .dirOut => s.irqEnDir
  | .dirIn => s.irqEnDir
  | .rstAssert => s.irqEnRst
  | .rstRelease => s.irqEnRst
  | .brk _ => s.irqEnBrk

@[simp] theorem State.eventEnable_script (s : State) (rest : List HostEvent) (e : HostEvent) :
    State.eventEnable { s with script := rest } e = s.eventEnable e := by
  cases e <;> rfl

/-- A handler that answers a next state found its enable at 1. -/
theorem eventEnable_of_handle_next {e : HostEvent} {s t : State} (h : handle e s = .next t) :
    s.eventEnable e = true := by
  cases e with
  | rxWord w => rfl
  | txWord => rfl
  | dirOut => exact (onDirOut_next h).1
  | dirIn => exact (onDirIn_next h).1
  | rstAssert => exact (onRstAssert_next h).1
  | rstRelease => exact (onRstRelease_next h).1
  | brk edge => exact (onBrk_next (edge := edge) h).1

/-- An event whose enable is 0 has no handler step (R30). -/
theorem step_ne_next_of_eventEnable_false {s : State} {e : HostEvent} {rest : List HostEvent} (hm : s.mode = .emu)
    (hs : s.script = e :: rest) (he : s.eventEnable e = false) (t : State) : step s ≠ .next t := by
  intro h
  rw [step, transition_of_script hm hs] at h
  simpa [he] using eventEnable_of_handle_next h

theorem State.powerOn_enables {c : Config} {m : Memory} (h : resolve c m ≠ .none) :
    (State.powerOn c m).irqEnRst = true ∧ (State.powerOn c m).irqEnBrk = true ∧
      (State.powerOn c m).irqEnDir = true := by
  simp [State.powerOn, State.powerOnWith, h]

/-- Settles O37: power-on and the hand-over by their own values, persistence by what a step does to the enables,
and the last clause by the enable each event needs. -/
theorem interruptEnables : Obligations.InterruptEnables := by
  refine ⟨fun c m h => State.powerOn_enables h, fun s => ⟨rfl, rfl, rfl⟩, fun s t h => ?_,
    fun s e rest hm hs => ⟨?_, ?_, ?_⟩⟩
  · obtain ⟨hr, hb, hd⟩ | ⟨hr, hb, hd⟩ := step_keeps_or_clears_enables h
    · exact ⟨hr.trans, hb.trans, hd.trans⟩
    · exact ⟨fun _ => hr, fun _ => hb, fun _ => hd⟩
  · rintro hd (rfl | rfl)
    · exact step_ne_next_of_eventEnable_false hm hs hd
    · exact step_ne_next_of_eventEnable_false hm hs hd
  · rintro hr (rfl | rfl)
    · exact step_ne_next_of_eventEnable_false hm hs hr
    · exact step_ne_next_of_eventEnable_false hm hs hr
  · rintro hb edge rfl
    exact step_ne_next_of_eventEnable_false hm hs hb

end Sys2Proof.Machine
end

section
/-! SUPPORT. The image and its parameters: what a step leaves of them, and the one induction that carries a
property from every step to any number of steps (20_memory.md R51, 10_state.md R40). -/

namespace Sys2Proof.Machine

/-- A property that every step keeps is kept by any number of steps. -/
theorem steps_preserves {P : State → Prop} (hstep : ∀ {u v : State}, step u = .next v → P u → P v) {n : Nat}
    {s t : State} (h : steps n s = .next t) (hs : P s) : P t := by
  induction n generalizing s with
  | zero => exact Host.Outcome.next.inj h ▸ hs
  | succ n ih =>
    rw [steps] at h
    split at h
    · next u hu => exact ih h (hstep hu hs)
    · cases h
    · cases h

/-- The flash, the parameters and the selected media of `t` are those of `s`. -/
structure State.SameImage (s t : State) : Prop where
  flash : t.flash = s.flash
  cfg : t.cfg = s.cfg
  media : t.media = s.media

theorem State.SameImage.refl (s : State) : s.SameImage s := ⟨rfl, rfl, rfl⟩

theorem State.SameImage.trans {s u t : State} (hsu : s.SameImage u) (hut : u.SameImage t) : s.SameImage t :=
  ⟨hut.flash.trans hsu.flash, hut.cfg.trans hsu.cfg, hut.media.trans hsu.media⟩

/-- No event writes the image or its parameters (R40, R51): a command by what the dispatcher can write, every other
event by its own next state. -/
theorem step_sameImage {s t : State} (h : step s = .next t) : s.SameImage t := by
  obtain ⟨-, ⟨-, rfl⟩ | ⟨rest, hevent⟩⟩ := step_next h
  · exact .refl _
  obtain hword | hout | hin | htx | hassert | hrelease | hhand | hbrk := hevent
  · obtain ⟨w, -, -, ⟨-, rfl⟩ | ⟨-, -, rfl⟩ | ⟨-, -, rfl⟩⟩ := hword
    · exact ⟨by simp, by simp, by simp⟩
    · exact ⟨by simp, by simp, by simp⟩
    · exact ⟨rfl, rfl, rfl⟩
  · obtain ⟨-, -, -, u, hu, rfl⟩ := hout
    obtain ⟨_, _, _, _, _, _, rfl⟩ := exec_writes_dispatcher_state hu
    exact ⟨by simp, by simp, by simp⟩
  · obtain ⟨-, -, -, rfl⟩ := hin
    exact ⟨rfl, rfl, rfl⟩
  · obtain ⟨-, -, -, -, -, -, -, rfl⟩ := htx
    exact ⟨rfl, rfl, rfl⟩
  · obtain ⟨-, -, -, rfl⟩ := hassert
    exact ⟨rfl, rfl, rfl⟩
  · obtain ⟨-, -, -, -, rfl⟩ := hrelease
    exact ⟨rfl, rfl, rfl⟩
  · obtain ⟨-, -, -, -, rfl⟩ := hhand
    exact ⟨rfl, rfl, rfl⟩
  · obtain ⟨_, -, -, rfl⟩ := hbrk
    exact ⟨rfl, rfl, rfl⟩

theorem steps_sameImage {n : Nat} {s t : State} (h : steps n s = .next t) : s.SameImage t :=
  steps_preserves (P := s.SameImage) (fun hstep hu => hu.trans (step_sameImage hstep)) h (.refl s)

/-- A read of the image is a read of the flash (R50), so it repeats while the image stands. -/
theorem State.SameImage.memRead_eq {s t : State} (h : s.SameImage t) (base off n : Nat) :
    memRead t base off n = memRead s base off n := by
  rw [memRead, memRead, h.flash]

/-- Settles O48: every step keeps the image and its parameters, so any number of steps does, and every read of the
flash is a function of what was kept. -/
theorem imageNeverWritten : Obligations.ImageNeverWritten := by
  intro n s t h
  have himage : s.SameImage t := steps_sameImage h
  exact ⟨fun addr => by rw [himage.flash], himage.flash, himage.cfg, himage.media, himage.memRead_eq⟩

end Sys2Proof.Machine
end

section
/-! SUPPORT. The outgoing turn as an equation: what the step answers once the decoded command's answer is known
(40_transport.md R91), and the command that a short transaction decodes to (30_encoding.md R80). -/

namespace Sys2Proof.Machine

/-- Fewer than three captured words are the absent command, whatever they hold (R80). -/
theorem decode_of_short {q : List Word} (c : Config) (hq : q.length < 3) : decode c q = .absent q.length := by
  rw [decode, assemble_eq_none.2 hq]

/-- ABSENT under the sourced constants (R150): it asserts the pin and stores 0x040800. -/
theorem exec_absent (n : Nat) {s : State} (hc : s.cfg.wf) :
    exec (.absent n) s = .next { s with err := true, ler := 0x040800 } := by
  obtain ⟨hsense, -⟩ := Config.wf_constants hc
  rw [← hsense]
  rfl

/-- When the decoded command answers a next state, the turn's step is that state with the handler's end run on it
(R91): the converse of `onDirOut_next`, for a whole step. -/
theorem step_dirOut_of_exec {s t : State} {rest : List HostEvent} (hm : s.mode = .emu) (hi : s.irqEnDir = true)
    (hd : s.dir = .h2d) (hs : s.script = .dirOut :: rest)
    (ht : exec (decode s.cfg s.rxq) { s with script := rest, dir := .d2h, out := s.out ++ [[]] } = .next t) :
    step s = .next t.afterRequest := by
  rw [step, transition_of_script hm hs, handle, onDirOut, if_pos hi]
  simp only [hd, State.turnOutgoing, ht]

/-- Settles O28: the short buffer decodes to ABSENT, which raises 0x040800 on the turned state and stays in `EMU`, so
the handler's end discards the words. -/
theorem shortTransactionIsMalformed : Obligations.ShortTransactionIsMalformed := by
  intro s rest hc hm hi hd hs hq
  have habsent : exec (decode s.cfg s.rxq) { s with script := rest, dir := .d2h, out := s.out ++ [[]] } = .next
      { s with script := rest, dir := .d2h, out := s.out ++ [[]], err := true, ler := 0x040800 } := by
    rw [decode_of_short s.cfg hq]
    exact exec_absent _ hc
  rw [step_dirOut_of_exec hm hi hd hs habsent, State.afterRequest_of_ne_update _ (by simp [hm])]
  rfl

end Sys2Proof.Machine
end

section
/-! SUPPORT. The outgoing turn as one equation over every answer of the command, and what a command can do to the mode
(40_transport.md R91, 41_dispatch_fixed.md R120). -/

namespace Sys2Proof.Machine

/-- The end of the outgoing handler as one choice on the mode alone (R91, R162). -/
theorem State.afterRequest_eq_ite (s : State) :
    s.afterRequest = if s.mode = .update then s else { s with rxq := [] } := by
  split
  · next hu => exact s.afterRequest_of_update hu
  · next hu => exact s.afterRequest_of_ne_update hu

/-- A dispatched command leaves the mode or triggers the reboot; none hands the bus over (R120, R162). -/
theorem exec_keeps_mode_or_updates {i : Instr} {s t : State} (h : exec i s = .next t) :
    t.mode = s.mode ∨ t.mode = .update := by
  have hx := exec_next h
  cases i with
  | absent n =>
    obtain rfl := hx
    exact .inl rfl
  | inquiry =>
    obtain ⟨-, rfl⟩ := hx
    exact .inl rfl
  | read a l =>
    obtain ⟨base, -, ⟨-, rfl⟩ | ⟨-, -, rfl⟩⟩ := hx
    · exact .inl rfl
    · exact .inl rfl
  | seek a l =>
    obtain ⟨-, rfl⟩ := hx
    exact .inl rfl
  | requestError =>
    obtain ⟨-, rfl⟩ := hx
    exact .inl rfl
  | stopMotor =>
    obtain ⟨-, rfl⟩ := hx
    exact .inl rfl
  | audioBufferConfig =>
    obtain ⟨-, rfl⟩ := hx
    exact .inl rfl
  | vendorIdentity =>
    obtain ⟨-, rfl⟩ := hx
    exact .inl rfl
  | vendorUpdate =>
    obtain rfl := hx
    exact .inr rfl
  | vendorOther sub =>
    obtain rfl := hx
    exact .inl rfl
  | unknown op =>
    obtain rfl := hx
    exact .inl rfl

/-- In `EMU` with a move pending, a step is that move's handler. -/
theorem step_of_script {s : State} {e : HostEvent} {rest : List HostEvent} (hm : s.mode = .emu)
    (hs : s.script = e :: rest) : step s = handle e { s with script := rest } :=
  transition_of_script hm hs

/-- Settles O27: the step by what the command answers, the guard by what the handler asks for, and the modes by what a
command can do to them. -/
theorem stepRunsDecodedCommand : Obligations.StepRunsDecodedCommand := by
  refine ⟨fun s rest hm hi hd hs => ?_, fun s t rest hs h => ?_, fun c => ?_, fun i s t h hm => ?_⟩
  · cases hx : exec (decode s.cfg s.rxq) { s with script := rest, dir := .d2h, out := s.out ++ [[]] } with
    | next t => rw [step_dirOut_of_exec hm hi hd hs hx, State.afterRequest_eq_ite]
    | fault f => simp only [step_of_script hm hs, handle, onDirOut, if_pos hi, hd, State.turnOutgoing, hx]
    | refused r => simp only [step_of_script hm hs, handle, onDirOut, if_pos hi, hd, State.turnOutgoing, hx]
  · have hm : s.mode = .emu := (step_next h).1
    rw [step_of_script hm hs] at h
    obtain ⟨-, hd, -⟩ := onDirOut_next h
    exact ⟨hm, hd⟩
  · exact decode_of_short c (q := []) (by decide)
  · exact hm ▸ exec_keeps_mode_or_updates h

end Sys2Proof.Machine
end

section
/-! SUPPORT. The assertion of the bus reset (40_transport.md R95). -/

namespace Sys2Proof.Machine

/-- `E_RST_ASSERT` while assertion is watched for (R95): the converse of `onRstAssert_next`. -/
theorem onRstAssert_of_waitAssert {s : State} (hi : s.irqEnRst = true) (hr : s.rstSense = .waitAssert) :
    onRstAssert s = .next { s with clkMask := true, err := false, rstSense := .waitRelease } := by
  rw [onRstAssert, if_pos hi, hr]
  rfl

/-- Settles O32: the handler's answer while assertion is watched for, and its guard while release is. -/
theorem resetAssertMasksClock : Obligations.ResetAssertMasksClock := by
  intro s rest hm hi hs
  rw [step_of_script hm hs]
  refine ⟨fun hr => onRstAssert_of_waitAssert hi hr, fun hr t h => ?_⟩
  obtain ⟨-, hassert, -⟩ := onRstAssert_next h
  cases hr.symm.trans hassert

end Sys2Proof.Machine
end

section
/-! SUPPORT. The dispatcher's reset entry and the one event that hands the bus over (41_dispatch_fixed.md R126). -/

namespace Sys2Proof.Machine

/-- The reset entry does not read the register: what stands in it passes through to the answer (R126). -/
theorem State.resetEntry_with_ler (s : State) (v : Sense) :
    State.resetEntry { s with ler := v } = { s.resetEntry with ler := v } := by
  unfold State.resetEntry
  split <;> rfl

/-- A step ends in `EMU`, where it began, in `UPDATE`, or it is the release of the bus reset with the latch set and
ends in `PASSTHROUGH` (R126, R162). -/
theorem step_mode_cases {s t : State} (h : step s = .next t) :
    t.mode = .emu ∨ t.mode = .update ∨
      (t.mode = .passthrough ∧ s.script.head? = some .rstRelease ∧ s.eal = true) := by
  obtain ⟨hm, ⟨-, rfl⟩ | ⟨rest, hevent⟩⟩ := step_next h
  · exact .inl hm
  obtain hword | hout | hin | htx | hassert | hrelease | hhand | hbrk := hevent
  · obtain ⟨w, -, -, ⟨-, rfl⟩ | ⟨-, -, rfl⟩ | ⟨-, -, rfl⟩⟩ := hword
    · exact .inl (by simpa using hm)
    · exact .inl (by simpa using hm)
    · exact .inl hm
  · obtain ⟨-, -, -, u, hu, rfl⟩ := hout
    rw [State.afterRequest_mode]
    obtain hkept | hupdate := exec_keeps_mode_or_updates hu
    · exact .inl (hkept.trans hm)
    · exact .inr (.inl hupdate)
  · obtain ⟨-, -, -, rfl⟩ := hin
    exact .inl hm
  · obtain ⟨-, -, -, -, -, -, -, rfl⟩ := htx
    exact .inl hm
  · obtain ⟨-, -, -, rfl⟩ := hassert
    exact .inl hm
  · obtain ⟨-, -, -, -, rfl⟩ := hrelease
    exact .inl hm
  · obtain ⟨hs, -, -, he, rfl⟩ := hhand
    exact .inr (.inr ⟨rfl, congrArg List.head? hs, he⟩)
  · obtain ⟨_, -, -, rfl⟩ := hbrk
    exact .inl hm

/-- Settles O39: the entry by its two equations and what it keeps, and the hand-over by the modes a step can end in. -/
theorem resetEntryPolicy : Obligations.ResetEntryPolicy := by
  refine ⟨fun s => ⟨s.resetEntry_of_eal, s.resetEntry_of_not_eal, s.resetEntry_ler, s.resetEntry_eal,
    s.resetEntry_with_ler⟩, fun s t h hp => ?_⟩
  obtain hemu | hupdate | ⟨-, hrelease⟩ := step_mode_cases h
  · cases hp.symm.trans hemu
  · cases hp.symm.trans hupdate
  · exact hrelease

end Sys2Proof.Machine
end

section
/-! SUPPORT. The three commands of the fixed zero response: what decodes to them and what sending it leaves
(30_encoding.md R77, 41_dispatch_fixed.md R123 to R125, R128). -/

namespace Sys2Proof.Machine

theorem decodeBlock_seek (c : Config) {b : Block} (hop : b[0] = 0xAB) :
    decodeBlock c b = .seek b.addressField b.lengthField := by
  simp [decodeBlock, hop]

theorem decodeBlock_stopMotor (c : Config) {b : Block} (hop : b[0] = 0xE3) : decodeBlock c b = .stopMotor := by
  simp [decodeBlock, hop]

theorem decodeBlock_audioBufferConfig (c : Config) {b : Block} (hop : b[0] = 0xE4) :
    decodeBlock c b = .audioBufferConfig := by
  simp [decodeBlock, hop]

/-- `send_zero4()` on an idle send side (R128). -/
theorem sendZero4_of_idle {s : State} (hs : s.txRem = []) :
    sendZero4 s = .next { s with txRem := [0, 0, 0, 0], txActive := true } :=
  send_buffer rspZero4 s rfl hs

/-- Settles O9: the decoder by the opcode byte, and each command by `send_zero4()` on an idle send side. -/
theorem zeroResponseCommands : Obligations.ZeroResponseCommands := by
  refine ⟨fun c b => ⟨decodeBlock_seek c, decodeBlock_stopMotor c, decodeBlock_audioBufferConfig c⟩, fun s hs => ?_⟩
  have hzero := sendZero4_of_idle hs
  exact ⟨fun _ _ => hzero, hzero, hzero⟩

end Sys2Proof.Machine
end

section
/-! SUPPORT. The error commands: what decodes to REQUEST_ERROR and to UNKNOWN, and what REQUEST_ERROR and UNKNOWN
answer (30_encoding.md R77, R79; 43_error_commands.md R150 to R152). -/

namespace Sys2Proof.Machine

theorem decodeBlock_requestError (c : Config) {b : Block} (hop : b[0] = 0xE0) : decodeBlock c b = .requestError := by
  simp [decodeBlock, hop]

/-- The frame of REQUEST_ERROR is armed with the register from before the clear (R152). -/
theorem execRequestError_of_idle {s : State} (hs : s.txRem = []) :
    execRequestError s = .next { s with txRem := rspErr4 s.ler, txActive := true, ler := 0 } := by
  rw [execRequestError, send_buffer (rspErr4 s.ler) s (by simp) hs]
  rfl

/-- Settles O10: the decoder by the opcode byte, and the command by its frame on an idle send side. -/
theorem requestErrorSendsAndClearsRegister : Obligations.RequestErrorSendsAndClearsRegister :=
  ⟨fun c _ => decodeBlock_requestError c, fun _ => execRequestError_of_idle⟩

/-- Settles O11: the short buffer is ABSENT, and ABSENT raises the sourced code. -/
theorem absentRaisesNoCommand : Obligations.AbsentRaisesNoCommand :=
  ⟨fun c _ => decode_of_short c, fun n _ => exec_absent n⟩

/-- A block whose first byte is none of the map's opcodes falls through every row (R79). -/
theorem decodeBlock_unknown (c : Config) {b : Block} (hop : b[0] ∉ knownOpcodes) :
    decodeBlock c b = .unknown b[0] := by
  simp only [knownOpcodes, List.mem_cons, List.not_mem_nil, or_false, not_or] at hop
  simp only [decodeBlock, hop, if_false]

/-- UNKNOWN under the sourced constants (R151): it asserts the pin and stores 0x052000. -/
theorem exec_unknown (op : Byte) {s : State} (hc : s.cfg.wf) :
    exec (.unknown op) s = .next { s with err := true, ler := 0x052000 } := by
  obtain ⟨-, hsense, -⟩ := Config.wf_constants hc
  rw [← hsense]
  rfl

/-- Settles O12: the decoder by exhaustion of the opcode map, and the command by the sourced code it raises. -/
theorem unknownRaisesIllegalRequest : Obligations.UnknownRaisesIllegalRequest :=
  ⟨fun c _ => decodeBlock_unknown c, fun op _ => exec_unknown op⟩

end Sys2Proof.Machine
end

section
/-! SUPPORT. The three actions a dispatched command can take, said once for the eleven commands (41_dispatch_fixed.md
R121), and the entry into a drive error (60_exceptions.md R172). -/

namespace Sys2Proof.Machine

@[simp] theorem State.armed_mode (bytes : List Byte) (s : State) : (s.armed bytes).mode = s.mode := rfl
@[simp] theorem State.armed_err (bytes : List Byte) (s : State) : (s.armed bytes).err = s.err := rfl

/-- A dispatched command arms a frame, raises a drive error, or is VENDOR_UPDATE and reboots. With a frame it can write
the register and the latch as well; with an error only the latch, and only if it is a READ. -/
theorem exec_sends_or_fails_or_reboots {i : Instr} {s t : State} (h : exec i s = .next t) :
    (i ≠ .vendorUpdate ∧ ∃ bytes ler eal, t = { s.armed bytes with ler := ler, eal := eal }) ∨
      (i ≠ .vendorUpdate ∧ ∃ code eal, t = { s.raiseDriveError code with eal := eal } ∧
        (eal = s.eal ∨ ∃ a l, i = .read a l)) ∨
      (i = .vendorUpdate ∧ t = { s with mode := .update }) := by
  have hx := exec_next h
  cases i with
  | absent n => exact .inr (.inl ⟨nofun, _, _, hx, .inl rfl⟩)
  | inquiry => exact .inl ⟨nofun, _, _, _, hx.2⟩
  | read a l =>
    obtain ⟨base, -, ⟨-, ht⟩ | ⟨-, -, ht⟩⟩ := hx
    · exact .inr (.inl ⟨nofun, _, _, ht, .inr ⟨a, l, rfl⟩⟩)
    · exact .inl ⟨nofun, _, _, _, ht⟩
  | seek a l => exact .inl ⟨nofun, _, _, _, hx.2⟩
  | requestError => exact .inl ⟨nofun, _, _, _, hx.2⟩
  | stopMotor => exact .inl ⟨nofun, _, _, _, hx.2⟩
  | audioBufferConfig => exact .inl ⟨nofun, _, _, _, hx.2⟩
  | vendorIdentity => exact .inl ⟨nofun, _, _, _, hx.2⟩
  | vendorUpdate => exact .inr (.inr ⟨rfl, hx⟩)
  | vendorOther sub => exact .inr (.inl ⟨nofun, _, _, hx, .inl rfl⟩)
  | unknown op => exact .inr (.inl ⟨nofun, _, _, hx, .inl rfl⟩)

/-- Only a failing command asserts a released pin, so nothing but the register, and for READ the latch, changes with
it (R172). -/
theorem exec_asserts_pin {i : Instr} {s t : State} (h : exec i s = .next t) (hs : s.err = false) (ht : t.err = true) :
    t = { s with err := true, ler := t.ler, eal := t.eal } ∧ (t.eal = s.eal ∨ ∃ a l, i = .read a l) := by
  obtain ⟨-, bytes, ler, eal, rfl⟩ | ⟨-, code, eal, rfl, heal⟩ | ⟨-, rfl⟩ := exec_sends_or_fails_or_reboots h
  · cases hs.symm.trans ht
  · exact ⟨rfl, heal⟩
  · cases hs.symm.trans ht

/-- Only the outgoing turn asserts a released pin, by the command it dispatches (R172). -/
theorem step_asserts_pin {s t : State} (h : step s = .next t) (hs : s.err = false) (ht : t.err = true) :
    s.mode = .emu ∧ ∃ rest u, s.script = .dirOut :: rest ∧
      exec (decode s.cfg s.rxq) { s with script := rest, dir := .d2h, out := s.out ++ [[]] } = .next u ∧
      u.err = true ∧ t = u.afterRequest := by
  obtain ⟨hm, ⟨-, rfl⟩ | ⟨rest, hevent⟩⟩ := step_next h
  · cases hs.symm.trans ht
  obtain hword | hout | hin | htx | hassert | hrelease | hhand | hbrk := hevent
  · obtain ⟨w, -, -, ⟨-, rfl⟩ | ⟨-, -, rfl⟩ | ⟨-, -, rfl⟩⟩ := hword
    · simp [hs] at ht
    · simp [hs] at ht
    · cases hs.symm.trans ht
  · obtain ⟨hscript, -, -, u, hu, rfl⟩ := hout
    exact ⟨hm, rest, u, hscript, hu, by simpa using ht, rfl⟩
  · obtain ⟨-, -, -, rfl⟩ := hin
    simp [hs] at ht
  · obtain ⟨-, -, -, -, front, f, -, rfl⟩ := htx
    cases hs.symm.trans ht
  · obtain ⟨-, -, -, rfl⟩ := hassert
    cases ht
  · obtain ⟨-, -, -, -, rfl⟩ := hrelease
    cases hs.symm.trans ht
  · obtain ⟨-, -, -, -, rfl⟩ := hhand
    cases hs.symm.trans ht
  · obtain ⟨_, -, -, rfl⟩ := hbrk
    cases hs.symm.trans ht

/-- Settles O26: the raise by its definition, the command by the three actions, and the event by the turn alone
asserting the pin, whose end resets the receive pipeline because a failing command stays in `EMU`. -/
theorem driveErrorEntry : Obligations.DriveErrorEntry := by
  refine ⟨fun _ _ => rfl, fun _ _ _ => exec_asserts_pin, fun s t h hs ht => ?_⟩
  obtain ⟨hm, rest, u, -, hu, herr, rfl⟩ := step_asserts_pin h hs ht
  obtain ⟨hueq, -⟩ := exec_asserts_pin hu hs herr
  have hemu : u.mode = .emu := (congrArg State.mode hueq).trans hm
  rw [State.afterRequest_of_ne_update u (by simp [hemu]), hueq]
  exact ⟨rfl, rfl, rfl, rfl, rfl, rfl⟩

end Sys2Proof.Machine
end

section
/-! SUPPORT. The mode after a command and after a step, as a function of the state before (60_exceptions.md R184). -/

namespace Sys2Proof.Machine

/-- VENDOR_UPDATE writes the mode, and no other command does (R162). -/
theorem exec_mode_eq {i : Instr} {s t : State} (h : exec i s = .next t) :
    t.mode = if i = .vendorUpdate then .update else s.mode := by
  obtain ⟨hi, _, _, _, rfl⟩ | ⟨hi, _, _, rfl, -⟩ | ⟨hi, rfl⟩ := exec_sends_or_fails_or_reboots h
  · exact (if_neg hi).symm
  · exact (if_neg hi).symm
  · exact (if_pos hi).symm

/-- The mode a step ends in: the release of the bus reset with the latch set hands the bus over, the turn that runs
VENDOR_UPDATE reboots, and every other step stays in `EMU` (R184). -/
theorem step_mode_eq {s t : State} (h : step s = .next t) :
    t.mode =
      if s.script.head? = some .rstRelease ∧ s.eal = true then .passthrough
      else if s.script.head? = some .dirOut ∧ decode s.cfg s.rxq = .vendorUpdate then .update
      else .emu := by
  obtain ⟨hm, ⟨hs, rfl⟩ | ⟨rest, hevent⟩⟩ := step_next h
  · simp [hs, hm]
  obtain hword | hout | hin | htx | hassert | hrelease | hhand | hbrk := hevent
  · obtain ⟨w, hs, -, ⟨-, rfl⟩ | ⟨-, -, rfl⟩ | ⟨-, -, rfl⟩⟩ := hword
    · simp [hs, hm]
    · simp [hs, hm]
    · simp [hs, hm]
  · obtain ⟨hs, -, -, u, hu, rfl⟩ := hout
    simp [hs, hm, exec_mode_eq hu]
  · obtain ⟨hs, -, -, rfl⟩ := hin
    simp [hs, hm]
  · obtain ⟨hs, -, -, -, -, -, -, rfl⟩ := htx
    simp [hs, hm]
  · obtain ⟨hs, -, -, rfl⟩ := hassert
    simp [hs, hm]
  · obtain ⟨hs, -, -, heal, rfl⟩ := hrelease
    simp [hs, hm, heal]
  · obtain ⟨hs, -, -, heal, rfl⟩ := hhand
    simp [hs, heal]
  · obtain ⟨_, hs, -, rfl⟩ := hbrk
    simp [hs, hm]

/-- The mode at power-on, by what the Media Resolver found (R201, R208). -/
theorem State.powerOn_mode (c : Config) (m : Memory) :
    (State.powerOn c m).mode = if resolve c m = .none then .passthrough else .emu := by
  simp [State.powerOn, State.powerOnWith]

/-- Settles O47: power-on by the resolver's result, and each terminal mode by the one event that the mode after a step
names for it; the two events differ, so neither hides the other. -/
theorem modeTransitionsComplete : Obligations.ModeTransitionsComplete := by
  refine ⟨fun c m => ⟨fun h => ?_, fun h => ?_⟩, fun s t h => ⟨(step_next h).1, ?_⟩⟩
  · rw [State.powerOn_mode, if_neg h]
  · rw [State.powerOn_mode, if_pos h]
  · rw [step_mode_eq h]
    split
    · next hhand => simp [hhand]
    · next hhand =>
      split
      · next hupdate => simp [hupdate]
      · next hupdate => simp [hhand, hupdate]

end Sys2Proof.Machine
end

section
/-! SUPPORT. The raw image as the Media Resolver's first choice, and the bytes of both images
(70_reset_and_hazards.md R203, R207). -/

namespace Sys2Proof.Machine

/-- Only the first step of the resolver answers the raw image (R203). -/
theorem resolve_eq_raw_iff (c : Config) (m : Memory) : resolve c m = .raw ↔ hasDiscMagic c m = true := by
  unfold resolve
  split
  · next hmagic => simp [hmagic]
  · next hmagic => split <;> simp [hmagic]

/-- The magic and its offset under the sourced constants (P8). -/
theorem Config.wf_discMagic {c : Config} (h : c.wf) : c.discMagic = [0x3D, 0x9F, 0x33, 0xC2] ∧ c.magicOff = 0x1C :=
  ⟨congrArg Constants.discMagic h.1, congrArg Constants.magicOff h.1⟩

theorem Memory.slice_four (m : Memory) (a : Nat) :
    m.slice a 4 = [m.read a, m.read (a + 1), m.read (a + 2), m.read (a + 3)] := rfl

/-- The magic test under the sourced constants, byte by byte in address order (R203). -/
theorem hasDiscMagic_iff {c : Config} (hc : c.wf) (m : Memory) :
    hasDiscMagic c m = true ↔
      m.read (c.payloadAddr + 0x1C) = 0x3D ∧ m.read (c.payloadAddr + 0x1D) = 0x9F ∧
        m.read (c.payloadAddr + 0x1E) = 0x33 ∧ m.read (c.payloadAddr + 0x1F) = 0xC2 := by
  obtain ⟨hmagic, hoff⟩ := Config.wf_discMagic hc
  have hslice : m.slice (c.payloadAddr + c.magicOff) c.discMagic.length =
      [m.read (c.payloadAddr + 0x1C), m.read (c.payloadAddr + 0x1D), m.read (c.payloadAddr + 0x1E),
        m.read (c.payloadAddr + 0x1F)] := by
    rw [hmagic, hoff]
    exact Memory.slice_four m _
  rw [hasDiscMagic, hslice, hmagic]
  simp

/-- Settles O41: the base by its definition, and the choice by the resolver's first step and the magic's bytes. -/
theorem magicSelectsRawImage : Obligations.MagicSelectsRawImage :=
  fun c m hc => ⟨rfl, (resolve_eq_raw_iff c m).trans (hasDiscMagic_iff hc m)⟩

/-- One byte of an image is the flash byte at its offset from the base (R50). -/
theorem memRead_one (s : State) (base off : Nat) : memRead s base off 1 = [s.flash.read (base + off)] := rfl

/-- Behind the header, the wrapped image is the payload (R207): its base lies `HDR_SIZE` below. -/
theorem memRead_wrapped_payload {s : State} (hc : s.cfg.wf) (i : Nat) :
    memRead s (s.cfg.payloadAddr - s.cfg.hdrSize) (s.cfg.hdrSize + i) 1 = [payloadByte s.cfg s.flash i] := by
  obtain ⟨-, -, -, hbelow, -⟩ := hc
  rw [memRead_one, payloadByte, ← Nat.add_assoc, Nat.sub_add_cancel hbelow]

/-- Settles O43: the bases and the length by their definitions, the bytes by reads of the flash, and the selection by
what a step keeps of the image. -/
theorem imageGeometry : Obligations.ImageGeometry := by
  refine ⟨fun c hc => ⟨rfl, rfl, fun _ => rfl, ?_⟩, fun s t h => ?_⟩
  · rintro s rfl i
    exact ⟨memRead_one .., memRead_wrapped_payload hc i, memRead_one ..⟩
  · have himage : s.SameImage t := step_sameImage h
    exact ⟨himage.media, by rw [himage.cfg, himage.media]⟩

end Sys2Proof.Machine
end

section
/-! SUPPORT. The decoder, row by row: the block that reaches it, the command each opcode and each sub-opcode selects,
and that it undoes the encoder (30_encoding.md R70 to R84, 40_transport.md R92). -/

namespace Sys2Proof.Machine

/-! ## From words to the block -/

theorem decode_of_assemble {c : Config} {q : List Word} {b : Block} (h : assemble c q = some b) :
    decode c q = decodeBlock c b := by
  rw [decode, h]

/-- The words of a block decode as the block does (R92). -/
theorem decode_wordsOfBlock (c : Config) (b : Block) : decode c (wordsOfBlock c.wordPack b) = decodeBlock c b :=
  decode_of_assemble (assemble_wordsOfBlock c b [])

/-- Fewer than three words are ABSENT, and three or more the block of the first three (R80, R81, R92). -/
theorem decode_cases (c : Config) (q : List Word) :
    (q.length < 3 ∧ decode c q = .absent q.length) ∨ ∃ b, decode c q = decodeBlock c b := by
  cases hb : assemble c q with
  | none =>
    have hq : q.length < 3 := assemble_eq_none.1 hb
    exact .inl ⟨hq, decode_of_short c hq⟩
  | some b => exact .inr ⟨b, decode_of_assemble hb⟩

/-! ## From the block to the command -/

/-- Byte 0 is one of the seven opcodes of the map, or none of them (R77). -/
theorem opcode_cases (op : Byte) :
    op = 0x12 ∨ op = 0xA8 ∨ op = 0xAB ∨ op = 0xE0 ∨ op = 0xE3 ∨ op = 0xE4 ∨ op = 0xF4 ∨ op ∉ knownOpcodes := by
  simp only [knownOpcodes, List.mem_cons, List.not_mem_nil, or_false]
  tauto

theorem decodeBlock_inquiry (c : Config) {b : Block} (hop : b[0] = 0x12) : decodeBlock c b = .inquiry := by
  simp [decodeBlock, hop]

theorem decodeBlock_read (c : Config) {b : Block} (hop : b[0] = 0xA8) :
    decodeBlock c b = .read b.addressField b.lengthField := by
  simp [decodeBlock, hop]

theorem decodeBlock_vendor (c : Config) {b : Block} (hop : b[0] = 0xF4) :
    decodeBlock c b = decodeVendor c b[c.f4SubIndex] := by
  simp [decodeBlock, hop]

theorem decodeVendor_identity (c : Config) : decodeVendor c c.f4SubIdentity = .vendorIdentity := if_pos rfl

/-- The two defined sub-opcodes differ, so the second is not shadowed by the first (P13). -/
theorem decodeVendor_update {c : Config} (hc : c.wf) : decodeVendor c c.f4SubUpdate = .vendorUpdate := by
  obtain ⟨-, -, -, -, -, hne, -⟩ := hc
  rw [decodeVendor, if_neg hne.symm, if_pos rfl]

theorem decodeVendor_other {c : Config} {sub : Byte} (hi : sub ≠ c.f4SubIdentity) (hu : sub ≠ c.f4SubUpdate) :
    decodeVendor c sub = .vendorOther sub := by
  rw [decodeVendor, if_neg hi, if_neg hu]

theorem decodeVendor_wf (c : Config) (sub : Byte) : (decodeVendor c sub).wf c = true := by
  unfold decodeVendor
  split
  · rfl
  · next hi =>
    split
    · rfl
    · next hu => simp [Instr.wf, hi, hu]

/-- The block's command is well formed, row by row: only VENDOR_OTHER and UNKNOWN have something to show (R79, R82). -/
theorem decodeBlock_wf (c : Config) (b : Block) : (decodeBlock c b).wf c = true := by
  obtain hop | hop | hop | hop | hop | hop | hop | hop := opcode_cases b[0]
  · rw [decodeBlock_inquiry c hop, Instr.wf]
  · rw [decodeBlock_read c hop, Instr.wf]
  · rw [decodeBlock_seek c hop, Instr.wf]
  · rw [decodeBlock_requestError c hop, Instr.wf]
  · rw [decodeBlock_stopMotor c hop, Instr.wf]
  · rw [decodeBlock_audioBufferConfig c hop, Instr.wf]
  · rw [decodeBlock_vendor c hop, decodeVendor_wf]
  · simp [decodeBlock_unknown c hop, Instr.wf, hop]

/-- Settles O2: a short list is ABSENT with its own length, and every block's command is well formed. -/
theorem decodeYieldsWellFormed : Obligations.DecodeYieldsWellFormed := by
  intro c q
  obtain ⟨hq, habsent⟩ | ⟨b, hb⟩ := decode_cases c q
  · simpa [habsent, Instr.wf] using hq
  · rw [hb, decodeBlock_wf]

/-! ## The encoder -/

/-- The fields of a CB-RW block are the ones encoded into it (R72, R74). -/
theorem blockRw_fields (op : Byte) (a l : BitVec 32) :
    (blockRw op a l).addressField = a ∧ (blockRw op a l).lengthField = l :=
  ⟨be32_be32Byte a, be32_be32Byte l⟩

/-- The sub-opcode stands at byte 1 of a CB-VND block, beside the opcode (R73, D11). -/
theorem decodeBlock_blockVnd {c : Config} (hc : c.wf) (sub : Byte) :
    decodeBlock c (blockVnd c sub) = decodeVendor c sub := by
  obtain ⟨-, -, -, hindex, -⟩ := Config.wf_constants hc
  have hop : (blockVnd c sub)[0] = 0xF4 := by simp [blockVnd, blockOp, hindex]
  rw [decodeBlock_vendor c hop]
  simp [blockVnd]

/-- The decoder gives back every well-formed command from its block (R84). -/
theorem decodeBlock_encodeBlock {c : Config} {i : Instr} {b : Block} (hc : c.wf) (hi : i.wf c = true)
    (hb : encodeBlock c i = some b) : decodeBlock c b = i := by
  cases i with
  | absent n => cases hb
  | inquiry =>
    obtain rfl := Option.some.inj hb
    exact decodeBlock_inquiry c rfl
  | read a l =>
    obtain rfl := Option.some.inj hb
    obtain ⟨ha, hl⟩ := blockRw_fields 0xA8 a l
    rw [decodeBlock_read c rfl, ha, hl]
  | seek a l =>
    obtain rfl := Option.some.inj hb
    obtain ⟨ha, hl⟩ := blockRw_fields 0xAB a l
    rw [decodeBlock_seek c rfl, ha, hl]
  | requestError =>
    obtain rfl := Option.some.inj hb
    exact decodeBlock_requestError c rfl
  | stopMotor =>
    obtain rfl := Option.some.inj hb
    exact decodeBlock_stopMotor c rfl
  | audioBufferConfig =>
    obtain rfl := Option.some.inj hb
    exact decodeBlock_audioBufferConfig c rfl
  | vendorIdentity =>
    obtain rfl := Option.some.inj hb
    rw [decodeBlock_blockVnd hc, decodeVendor_identity]
  | vendorUpdate =>
    obtain rfl := Option.some.inj hb
    rw [decodeBlock_blockVnd hc, decodeVendor_update hc]
  | vendorOther sub =>
    obtain rfl := Option.some.inj hb
    simp only [Instr.wf, Bool.and_eq_true, bne_iff_ne] at hi
    obtain ⟨hid, hup⟩ := hi
    rw [decodeBlock_blockVnd hc, decodeVendor_other hid hup]
  | unknown op =>
    obtain rfl := Option.some.inj hb
    have hop : op ∉ knownOpcodes := by simpa [Instr.wf] using hi
    exact decodeBlock_unknown c (b := blockOp op) hop

/-- Every command but ABSENT is sent as the words of its block. -/
theorem encode_of_encodeBlock {c : Config} {i : Instr} {b : Block} (hb : encodeBlock c i = some b) :
    encode c i = wordsOfBlock c.wordPack b := by
  unfold encode
  split
  · cases hb
  · next hsome => rw [Option.some.inj (hsome.symm.trans hb)]
  · next hnone => cases hnone.symm.trans hb

/-- Only ABSENT has no block, and it is as many words of zeros as it says (R84). -/
theorem encodeBlock_eq_none {c : Config} {i : Instr} (h : encodeBlock c i = none) : ∃ n, i = .absent n := by
  cases i <;> cases h
  exact ⟨_, rfl⟩

/-- Settles O1: ABSENT by its word count, and every other command by its block, which its words assemble to. -/
theorem decodeUndoesEncode : Obligations.DecodeUndoesEncode := by
  intro c i hc hi
  cases hb : encodeBlock c i with
  | none =>
    obtain ⟨n, rfl⟩ := encodeBlock_eq_none hb
    have hn : n < 3 := by simpa [Instr.wf] using hi
    have hlen : (encode c (.absent n)).length = n := Sys2Proof.Laws.EncodeLength.absent n c
    rw [decode_of_short c (hlen.trans_lt hn), hlen]
  | some b => rw [encode_of_encodeBlock hb, decode_wordsOfBlock, decodeBlock_encodeBlock hc hi hb]

/-! ## Which words and bytes count -/

/-- Settles O5: only the three oldest words are assembled. -/
theorem excessWordsIgnored : Obligations.ExcessWordsIgnored := fun _ _ _ _ _ => rfl

/-- Under the little-endian packing wire byte `j` of a word is its bits from `8 j` up (R55). -/
theorem byte_little (w : Word) (j : Fin 4) : Word.byte .little w j.val = w.extractLsb' (8 * j.val) 8 := by
  fin_cases j <;> rfl

/-- Byte `4 i + j` of the assembled block is wire byte `j` of word `i` (R92). -/
theorem blockOfWords_getElem (p : ByteOrder) (q : Vector Word 3) (i : Fin 3) (j : Fin 4) :
    (blockOfWords p q[0] q[1] q[2])[4 * i.val + j.val] = Word.byte p q[i] j.val := by
  fin_cases i <;> fin_cases j <;> rfl

/-- Settles O6: the packing by its sourced order, and the fields by the big-endian value of four bytes. -/
theorem fieldsAssembleBigEndian : Obligations.FieldsAssembleBigEndian := by
  intro c q rest hc
  obtain ⟨-, -, -, -, hpack⟩ := Config.wf_constants hc
  refine ⟨blockOfWords c.wordPack q[0] q[1] q[2], rfl, fun i j => ?_, be32_toNat .., be32_toNat ..⟩
  rw [blockOfWords_getElem, hpack, byte_little]

theorem be32_congr {a b c d a' b' c' d' : Byte} (ha : a = a') (hb : b = b') (hc : c = c') (hd : d = d') :
    be32 a b c d = be32 a' b' c' d' := by
  rw [ha, hb, hc, hd]

/-- SEEK uses neither of its fields (R123). -/
theorem exec_seek_eq (a l : BitVec 32) (s : State) : exec (.seek a l) s = sendZero4 s := rfl

/-- Settles O7: the opcode selects the same row for both blocks; READ's fields agree, the sub-opcode agrees, and SEEK
answers alike at any fields. -/
theorem unexaminedBytesChangeNothing : Obligations.UnexaminedBytesChangeNothing := by
  intro c b b' s hc h0 h1 hfields
  obtain ⟨-, -, -, hindex, -⟩ := Config.wf_constants hc
  obtain hop | hop | hop | hop | hop | hop | hop | hop := opcode_cases b[0]
  · rw [decodeBlock_inquiry c hop, decodeBlock_inquiry c (h0 ▸ hop)]
  · have hk := hfields hop
    have haddress : b.addressField = b'.addressField := be32_congr (hk 0) (hk 1) (hk 2) (hk 3)
    have hlength : b.lengthField = b'.lengthField := be32_congr (hk 4) (hk 5) (hk 6) (hk 7)
    rw [decodeBlock_read c hop, decodeBlock_read c (h0 ▸ hop), haddress, hlength]
  · rw [decodeBlock_seek c hop, decodeBlock_seek c (h0 ▸ hop), exec_seek_eq, exec_seek_eq]
  · rw [decodeBlock_requestError c hop, decodeBlock_requestError c (h0 ▸ hop)]
  · rw [decodeBlock_stopMotor c hop, decodeBlock_stopMotor c (h0 ▸ hop)]
  · rw [decodeBlock_audioBufferConfig c hop, decodeBlock_audioBufferConfig c (h0 ▸ hop)]
  · have hsub : b[c.f4SubIndex] = b'[c.f4SubIndex] := by
      simp only [hindex]
      exact h1 hop
    rw [decodeBlock_vendor c hop, decodeBlock_vendor c (h0 ▸ hop), hsub]
  · rw [decodeBlock_unknown c hop, decodeBlock_unknown c (h0 ▸ hop), h0]

/-- Settles O4: each vector by the row its opcode selects, with the fields its words carry. -/
theorem specVectorsDecode : Obligations.SpecVectorsDecode := by
  intro p
  refine ⟨?_, ?_, ?_, ?_, ?_, ?_, ?_, ?_, ?_, fun hsub => ?_⟩
  · exact decodeBlock_inquiry _ (b := blockOfWords .little 0x00000012 0 0) rfl
  · exact decodeBlock_read _ (b := blockOfWords .little 0x000000A8 0x01000000 0x3F000000) rfl
  · exact decodeBlock_seek _ (b := blockOfWords .little 0x000000AB 0xFFFFFFFF 0) rfl
  · exact decodeBlock_requestError _ (b := blockOfWords .little 0x000000E0 0 0) rfl
  · exact decodeBlock_stopMotor _ (b := blockOfWords .little 0x000000E3 0 0) rfl
  · exact decodeBlock_audioBufferConfig _ (b := blockOfWords .little 0x0A0001E4 0 0) rfl
  · exact decodeBlock_unknown _ (b := blockOfWords .little 0x000000FF 0 0) (by decide)
  · exact decode_of_short _ (q := [0x000000A8, 0]) (by decide)
  · exact decodeBlock_vendor _ (b := blockOfWords .little 0x020100F4 0 0) rfl
  · have hvendor : decode { toParams := p } [0x000001F4, 0, 0] = decodeVendor { toParams := p } 0x01 :=
      decodeBlock_vendor _ (b := blockOfWords .little 0x000001F4 0 0) rfl
    rw [hvendor, ← hsub]
    exact decodeVendor_identity _

end Sys2Proof.Machine
end

section
/-! SUPPORT. The machine-readable opcode table: each row but the last asks for an opcode in byte 0 and perhaps for a
sub-opcode, and the first row met is the decoder's (30_encoding.md R77, R86). -/

namespace Sys2Proof

open Machine

/-- The mask of the table's rows keeps the most significant byte of the 96 bits, which is byte 0 (R86). -/
theorem Block.bits_and_opcodeMask (b : Block) :
    b.bits &&& (0xFF0000000000000000000000 : BitVec 96) = b[0].setWidth 96 <<< 88 := by
  have hmask : b.bits &&& (0xFF0000000000000000000000 : BitVec 96) = (b.bits >>> 88) <<< 88 := by
    ext i hi
    interval_cases i <;> simp
  have htop : b.bits >>> 88 = b[0].setWidth 96 := by
    apply BitVec.eq_of_toNat_eq
    simp only [BitVec.toNat_ushiftRight, Nat.shiftRight_eq_div_pow, Block.bits, BitVec.toNat_ofNat,
      BitVec.toNat_setWidth]
    omega
  rw [hmask, htop]

/-- A byte can be read back from the top of the 96 bits. -/
theorem setWidth_shiftLeft_inj {x y : Byte} : x.setWidth 96 <<< 88 = y.setWidth 96 <<< 88 ↔ x = y := by
  refine ⟨fun h => ?_, fun h => h ▸ rfl⟩
  have hnat := congrArg BitVec.toNat h
  simp only [BitVec.toNat_shiftLeft, BitVec.toNat_setWidth, Nat.shiftLeft_eq] at hnat
  apply BitVec.eq_of_toNat_eq
  omega

/-- What a row's `sub` entry asks of a block (R86). -/
def SubEntry.met (c : Config) (b : Block) : SubEntry → Bool
  | .any => true
  | .identity => b[c.f4SubIndex] == c.f4SubIdentity
  | .update => b[c.f4SubIndex] == c.f4SubUpdate

/-- A row of the table that asks for an opcode (R86). -/
def opcodeRow (mnemonic : String) (op : Byte) (sub : SubEntry) : TableRow :=
  { mnemonic := mnemonic, pattern := op.setWidth 96 <<< 88, mask := 0xFF0000000000000000000000, sub := sub }

/-- A row with an opcode selects the blocks that begin with it and meet its `sub` entry (R86). -/
theorem selects_opcodeRow (c : Config) (b : Block) (mnemonic : String) (op : Byte) (sub : SubEntry) :
    (opcodeRow mnemonic op sub).selects c b = (b[0] == op && sub.met c b) := by
  have hopcode : (b.bits &&& (0xFF0000000000000000000000 : BitVec 96) == op.setWidth 96 <<< 88) = (b[0] == op) := by
    rw [Block.bits_and_opcodeMask, Bool.eq_iff_iff, beq_iff_eq, beq_iff_eq, setWidth_shiftLeft_inj]
  unfold TableRow.selects
  simp only [opcodeRow, hopcode]
  cases sub <;> rfl

@[simp] theorem opcodeRow_mnemonic (mnemonic : String) (op : Byte) (sub : SubEntry) :
    (opcodeRow mnemonic op sub).mnemonic = mnemonic := rfl

/-- The table's last row, of no bits (R79). -/
def unknownRow : TableRow := { mnemonic := "UNKNOWN", pattern := 0, mask := 0, sub := .any }

theorem selects_unknownRow (c : Config) (b : Block) : unknownRow.selects c b = true := by
  simp [TableRow.selects, unknownRow]

@[simp] theorem unknownRow_mnemonic : unknownRow.mnemonic = "UNKNOWN" := rfl

theorem opcodeTable_eq : opcodeTable =
    [opcodeRow "INQUIRY" 0x12 .any, opcodeRow "READ" 0xA8 .any, opcodeRow "SEEK" 0xAB .any,
      opcodeRow "REQUEST_ERROR" 0xE0 .any, opcodeRow "STOP_MOTOR" 0xE3 .any, opcodeRow "AUDIO_BUFFER_CONFIG" 0xE4 .any,
      opcodeRow "VENDOR_IDENTITY" 0xF4 .identity, opcodeRow "VENDOR_UPDATE" 0xF4 .update,
      opcodeRow "VENDOR_OTHER" 0xF4 .any, unknownRow] := rfl

/-- The first row met is the head if its test holds, and else the first of the tail. -/
theorem map_find?_cons {α β : Type} (f : α → β) (p : α → Bool) (x : α) (xs : List α) :
    ((x :: xs).find? p).map f = if p x then some (f x) else (xs.find? p).map f := by
  rw [List.find?_cons]
  cases p x <;> rfl

/-- The mnemonic of the first row met, as a chain of tests on byte 0 and on the sub-opcode (R86). -/
theorem tableMnemonic_eq (c : Config) (b : Block) :
    tableMnemonic c b =
      if b[0] = 0x12 then some "INQUIRY"
      else if b[0] = 0xA8 then some "READ"
      else if b[0] = 0xAB then some "SEEK"
      else if b[0] = 0xE0 then some "REQUEST_ERROR"
      else if b[0] = 0xE3 then some "STOP_MOTOR"
      else if b[0] = 0xE4 then some "AUDIO_BUFFER_CONFIG"
      else if b[0] = 0xF4 ∧ b[c.f4SubIndex] = c.f4SubIdentity then some "VENDOR_IDENTITY"
      else if b[0] = 0xF4 ∧ b[c.f4SubIndex] = c.f4SubUpdate then some "VENDOR_UPDATE"
      else if b[0] = 0xF4 then some "VENDOR_OTHER"
      else some "UNKNOWN" := by
  rw [tableMnemonic, opcodeTable_eq]
  simp only [map_find?_cons, selects_opcodeRow, selects_unknownRow, SubEntry.met, Bool.and_true, Bool.and_eq_true,
    beq_iff_eq, opcodeRow_mnemonic, unknownRow_mnemonic, if_true]

theorem decodeVendor_mnemonic (c : Config) (sub : Byte) :
    (decodeVendor c sub).mnemonic =
      if sub = c.f4SubIdentity then "VENDOR_IDENTITY"
      else if sub = c.f4SubUpdate then "VENDOR_UPDATE"
      else "VENDOR_OTHER" := by
  rw [decodeVendor, apply_ite Instr.mnemonic, apply_ite Instr.mnemonic]
  rfl

/-- Settles O3: for each opcode the first row met is the decoder's, and 0xF4 tests the sub-opcode as the decoder
does. -/
theorem decodeFollowsOpcodeTable : Obligations.DecodeFollowsOpcodeTable := by
  intro c b
  rw [tableMnemonic_eq]
  obtain hop | hop | hop | hop | hop | hop | hop | hop := opcode_cases b[0]
  · simp [decodeBlock_inquiry c hop, hop, Instr.mnemonic]
  · simp [decodeBlock_read c hop, hop, Instr.mnemonic]
  · simp [decodeBlock_seek c hop, hop, Instr.mnemonic]
  · simp [decodeBlock_requestError c hop, hop, Instr.mnemonic]
  · simp [decodeBlock_stopMotor c hop, hop, Instr.mnemonic]
  · simp [decodeBlock_audioBufferConfig c hop, hop, Instr.mnemonic]
  · simp [decodeBlock_vendor c hop, hop, decodeVendor_mnemonic, apply_ite some]
  · rw [decodeBlock_unknown c hop]
    simp only [knownOpcodes, List.mem_cons, List.not_mem_nil, or_false, not_or] at hop
    simp only [hop, false_and, if_false, Instr.mnemonic]

end Sys2Proof
end

section
/-! SUPPORT. READ as an equation on either side of its bound, and the blocks the other commands send, as the spec writes
them (42_read.md R140 to R144, 30_encoding.md R75, R76, R85). -/

namespace Sys2Proof.Machine

/-- The bound check of R142, in the words of the command's fields. -/
theorem readFails_iff {c : Config} {base : Nat} {a l : BitVec 32} :
    readFails c base a l = true ↔ c.flashEnd - base < a.toNat * 4 + (l.toNat - l.toNat % 32) := by
  simp [readFails, imgLen, byteOffset, maskedLength_eq]

theorem readFails_eq_false_iff {c : Config} {base : Nat} {a l : BitVec 32} :
    readFails c base a l = false ↔ a.toNat * 4 + (l.toNat - l.toNat % 32) ≤ c.flashEnd - base := by
  rw [← Bool.not_eq_true, readFails_iff, Nat.not_lt]

/-- The flash bytes of a READ's range, in increasing order (R50, R140). -/
def readSlice (s : State) (base : Nat) (a l : BitVec 32) : List Byte :=
  (List.range (l.toNat - l.toNat % 32)).map fun k => s.flash.read (base + a.toNat * 4 + k)

theorem memRead_eq_readSlice (s : State) (base : Nat) (a l : BitVec 32) :
    memRead s base (byteOffset a) (maskedLength l) = readSlice s base a l := by
  rw [memRead, maskedLength_eq]
  rfl

@[simp] theorem readSlice_length (s : State) (base : Nat) (a l : BitVec 32) :
    (readSlice s base a l).length = l.toNat - l.toNat % 32 := by
  simp [readSlice]

theorem readSlice_ne_nil_iff (s : State) (base : Nat) (a l : BitVec 32) :
    readSlice s base a l ≠ [] ↔ 32 ≤ l.toNat := by
  rw [← List.length_pos_iff, readSlice_length]
  omega

/-- `TX_ACTIVE` as the model writes it is `TX_ACTIVE` as R26 says it. -/
theorem not_isEmpty_eq_decide {α : Type} (bytes : List α) [Decidable (bytes ≠ [])] :
    (!bytes.isEmpty) = decide (bytes ≠ []) := by
  cases bytes <;> simp

theorem readSlice_mod_four (s : State) (base : Nat) (a l : BitVec 32) : (readSlice s base a l).length % 4 = 0 := by
  rw [readSlice_length]
  omega

/-- An image read starts at a 4-aligned address, since the base is one (P1, R57). -/
theorem imageSource_aligned {c : Config} {media : Media} {base : Nat} (hc : c.wf) (hbase : imgBase c media = some base)
    (a : BitVec 32) : (Source.flash (base + byteOffset a)).aligned = true := by
  obtain ⟨haligned, -⟩ := imgBase_spec hc hbase
  simp only [Source.aligned, byteOffset, beq_iff_eq]
  omega

/-- READ with its range inside the image is one `send` straight from the flash, with the latch set (R140, R145). -/
theorem exec_read_eq_send {a l : BitVec 32} {s : State} {base : Nat} (hbase : imgBase s.cfg s.media = some base)
    (hfits : a.toNat * 4 + (l.toNat - l.toNat % 32) ≤ s.cfg.flashEnd - base) :
    exec (.read a l) s = send (.flash (base + byteOffset a)) (readSlice s base a l) s.markEmulation := by
  rw [exec, execRead, hbase, ← memRead_eq_readSlice]
  simp only [readFails_eq_false_iff.2 hfits, Bool.false_eq_true, if_false]
  rfl

theorem exec_read_of_fits {a l : BitVec 32} {s : State} {base : Nat} (hc : s.cfg.wf)
    (hbase : imgBase s.cfg s.media = some base) (hidle : s.txRem = [])
    (hfits : a.toNat * 4 + (l.toNat - l.toNat % 32) ≤ s.cfg.flashEnd - base) :
    exec (.read a l) s = .next (s.markEmulation.armed (readSlice s base a l)) := by
  rw [exec_read_eq_send hbase hfits]
  exact (send_next_iff _ _ _ _).2 ⟨readSlice_mod_four .., imageSource_aligned hc hbase a, hidle, rfl⟩

/-- READ with its range past the image's end, whatever the send side does (R142, D8). -/
theorem exec_read_of_past_end {a l : BitVec 32} {s : State} {base : Nat}
    (hbase : imgBase s.cfg s.media = some base)
    (hpast : s.cfg.flashEnd - base < a.toNat * 4 + (l.toNat - l.toNat % 32)) :
    exec (.read a l) s = .next (s.markEmulation.raiseDriveError s.cfg.senseLeadOut) := by
  rw [exec, execRead, hbase]
  simp only [readFails_iff.2 hpast, if_true]

/-- Settles O16: the decoder by the opcode, and the command by what it arms in bounds. -/
theorem readInBoundsSendsExactSlice : Obligations.ReadInBoundsSendsExactSlice := by
  refine ⟨fun c b => decodeBlock_read c, fun a l s base hc hbase hidle hfits => ?_⟩
  have hactive : (!(readSlice s base a l).isEmpty) = decide (32 ≤ l.toNat) := by
    rw [not_isEmpty_eq_decide, decide_eq_decide, readSlice_ne_nil_iff]
  rw [exec_read_of_fits hc hbase hidle hfits, State.armed, hactive]
  rfl

/-- Settles O17: past the bound READ raises the sourced code on the state with the latch set. -/
theorem readOutOfBoundsRaisesLeadOut : Obligations.ReadOutOfBoundsRaisesLeadOut := by
  intro a l s base hc hbase hpast
  obtain ⟨-, -, hsense, -⟩ := Config.wf_constants hc
  rw [exec_read_of_past_end hbase hpast, hsense]
  rfl

theorem rspInq32_eq (c : Config) : rspInq32 c = c.inquiryBlock.toList := blockBytes_eq_toList _

theorem rspId_eq (c : Config) :
    rspId c = match c.f4IdBlock with | .short v => v.toList | .long v => v.toList := by
  unfold rspId
  cases c.f4IdBlock <;> exact blockBytes_eq_toList _

theorem rspId_mod_four (c : Config) : (rspId c).length % 4 = 0 := by
  obtain h | h := rspId_length c <;> rw [h]

theorem rspId_ne_nil (c : Config) : rspId c ≠ [] := by
  rw [← List.length_pos_iff]
  obtain h | h := rspId_length c <;> omega

/-- A fixed block on an idle send side is armed (R98). -/
theorem send_buffer_eq_armed {bytes : List Byte} {s : State} (hb : bytes.length % 4 = 0) (hidle : s.txRem = []) :
    send .buffer bytes s = .next (s.armed bytes) :=
  send_buffer bytes s hb hidle

theorem State.armed_of_ne_nil {bytes : List Byte} (s : State) (h : bytes ≠ []) :
    s.armed bytes = { s with txRem := bytes, txActive := true } := by
  rw [State.armed, not_isEmpty_eq_decide, decide_eq_true h]

/-- Settles O8: the decoder by the opcode, and the command by its 32-byte block on an idle send side. -/
theorem inquirySendsIdentityBlock : Obligations.InquirySendsIdentityBlock := by
  refine ⟨fun c b => decodeBlock_inquiry c, fun s hidle => ?_⟩
  have hlength : (rspInq32 s.cfg).length = 32 := rspInq32_length s.cfg
  have hne : rspInq32 s.cfg ≠ [] := List.ne_nil_of_length_eq_add_one hlength
  rw [exec, execInquiry, send_buffer_eq_armed (by rw [hlength]) hidle, State.armed_of_ne_nil s hne, rspInq32_eq]

/-- The sub-opcode of a VENDOR block is byte 1 (R160, D11). -/
theorem decodeBlock_vendor_of_wf {c : Config} {b : Block} (hc : c.wf) (hop : b[0] = 0xF4) :
    decodeBlock c b = decodeVendor c b[1] := by
  obtain ⟨-, -, -, hindex, -⟩ := Config.wf_constants hc
  rw [decodeBlock_vendor c hop]
  simp only [hindex]
  rfl

/-- Settles O13: the decoder by the sub-opcode, and the command by its block on an idle send side. -/
theorem vendorIdentitySendsBlock : Obligations.VendorIdentitySendsBlock := by
  refine ⟨fun c b hc hop hsub => ?_, fun s hidle => ?_⟩
  · rw [decodeBlock_vendor_of_wf hc hop, hsub, decodeVendor_identity]
  · have hexec : exec .vendorIdentity s = .next (s.armed (rspId s.cfg)) :=
      send_buffer_eq_armed (rspId_mod_four _) hidle
    rw [hexec, State.armed_of_ne_nil s (rspId_ne_nil _)]
    exact congrArg (fun bytes => Host.Outcome.next { s with txRem := bytes, txActive := true }) (rspId_eq s.cfg)

/-- Settles O14: the decoder by the sub-opcode, the command by its one write, and the step by the handler's end doing
nothing in `UPDATE`. -/
theorem vendorUpdateStopsTheHandler : Obligations.VendorUpdateStopsTheHandler := by
  refine ⟨fun c b hc hop hsub => ?_, fun s => rfl, fun s rest hm hi hd hs hdecode => ?_⟩
  · rw [decodeBlock_vendor_of_wf hc hop, hsub, decodeVendor_update hc]
  · have hexec : exec (decode s.cfg s.rxq) { s with script := rest, dir := .d2h, out := s.out ++ [[]] } =
        .next { s with script := rest, dir := .d2h, out := s.out ++ [[]], mode := .update } := by
      rw [hdecode]
      rfl
    rw [step_dirOut_of_exec hm hi hd hs hexec, State.afterRequest_of_update _ rfl]

/-- Settles O15: the decoder by the sub-opcode, and the command by the sourced code it raises. -/
theorem vendorOtherRaisesIllegalRequest : Obligations.VendorOtherRaisesIllegalRequest := by
  refine ⟨fun c b hc hop hid hup => ?_, fun sub s hc => ?_⟩
  · rw [decodeBlock_vendor_of_wf hc hop, decodeVendor_other hid hup]
  · exact exec_unknown sub hc

/-- A fixed block over a frame in flight is refused (D38). -/
theorem send_buffer_busy {bytes : List Byte} {s : State} (hb : bytes.length % 4 = 0) (hbusy : s.txRem ≠ []) :
    send .buffer bytes s = .refused .sendBusy :=
  send_busy .buffer bytes s hb rfl hbusy

/-- Settles O18: each command that sends by `send` on a busy send side, and READ by the missing image. -/
theorem dispatcherRefusals : Obligations.DispatcherRefusals := by
  refine fun s hc => ⟨fun hbusy => ?_, fun hnone a l => ?_⟩
  · have hzero : sendZero4 s = .refused .sendBusy := send_buffer_busy rfl hbusy
    refine ⟨?_, fun _ _ => hzero, ?_, hzero, hzero, ?_, fun a l base hbase hfits => ?_⟩
    · exact send_buffer_busy (by rw [rspInq32_length]) hbusy
    · rw [exec, execRequestError, send_buffer_busy (by rw [rspErr4_length]) hbusy]
    · exact send_buffer_busy (rspId_mod_four _) hbusy
    · rw [exec_read_eq_send hbase hfits]
      exact send_busy _ _ _ (readSlice_mod_four ..) (imageSource_aligned hc hbase a) hbusy
  · rw [exec, execRead, hnone]
    rfl

end Sys2Proof.Machine
end

section
/-! SUPPORT. What a dispatched command leaves, in six shapes; from them the error state, the latch and the frame after
every command (41_dispatch_fixed.md R121, R127; 60_exceptions.md R173). -/

namespace Sys2Proof.Machine

@[simp] theorem State.armed_eal (bytes : List Byte) (s : State) : (s.armed bytes).eal = s.eal := rfl
@[simp] theorem State.armed_txRem (bytes : List Byte) (s : State) : (s.armed bytes).txRem = bytes := rfl

/-- The next states of a dispatched command: it arms a fixed frame or raises an illegal request or a missing command;
READ, which alone sets the latch, arms a slice or raises the lead-out error; REQUEST_ERROR clears the register; and
VENDOR_UPDATE reboots. -/
inductive State.Dispatched (s : State) (i : Instr) : State → Prop where
  | sends (bytes : List Byte) (hlength : bytes.length % 4 = 0) (hread : ∀ a l, i ≠ .read a l) :
      s.Dispatched i (s.armed bytes)
  | sendsImage (a l : BitVec 32) (bytes : List Byte) (hi : i = .read a l) (hlength : bytes.length % 4 = 0) :
      s.Dispatched i (s.markEmulation.armed bytes)
  | sendsRegister (hi : i = .requestError) : s.Dispatched i { s.armed (rspErr4 s.ler) with ler := 0 }
  | fails (code : Sense) (hcode : code = s.cfg.senseNoCommand ∨ code = s.cfg.senseIllegal)
      (hread : ∀ a l, i ≠ .read a l) : s.Dispatched i (s.raiseDriveError code)
  | failsImage (a l : BitVec 32) (hi : i = .read a l) :
      s.Dispatched i (s.markEmulation.raiseDriveError s.cfg.senseLeadOut)
  | reboots (hi : i = .vendorUpdate) : s.Dispatched i { s with mode := .update }

theorem exec_dispatched {i : Instr} {s t : State} (h : exec i s = .next t) : s.Dispatched i t := by
  have hx := exec_next h
  cases i with
  | absent n =>
    obtain rfl := hx
    exact .fails _ (.inl rfl) nofun
  | inquiry =>
    obtain ⟨-, rfl⟩ := hx
    exact .sends _ (by rw [rspInq32_length]) nofun
  | read a l =>
    obtain ⟨base, -, ⟨-, rfl⟩ | ⟨-, -, rfl⟩⟩ := hx
    · exact .failsImage a l rfl
    · exact .sendsImage a l _ rfl (by rw [memRead_eq_readSlice, readSlice_mod_four])
  | seek a l =>
    obtain ⟨-, rfl⟩ := hx
    exact .sends _ rfl nofun
  | requestError =>
    obtain ⟨-, rfl⟩ := hx
    exact .sendsRegister rfl
  | stopMotor =>
    obtain ⟨-, rfl⟩ := hx
    exact .sends _ rfl nofun
  | audioBufferConfig =>
    obtain ⟨-, rfl⟩ := hx
    exact .sends _ rfl nofun
  | vendorIdentity =>
    obtain ⟨-, rfl⟩ := hx
    exact .sends _ (rspId_mod_four _) nofun
  | vendorUpdate =>
    obtain rfl := hx
    exact .reboots rfl
  | vendorOther sub =>
    obtain rfl := hx
    exact .fails _ (.inr rfl) nofun
  | unknown op =>
    obtain rfl := hx
    exact .fails _ (.inr rfl) nofun

/-- Settles O19: the six elements are the dispatcher's, and the flash is none of them. -/
theorem commandsChangeOnlyDispatcherState : Obligations.CommandsChangeOnlyDispatcherState := by
  intro i s t h
  obtain ⟨_, _, _, _, _, _, rfl⟩ := exec_writes_dispatcher_state h
  exact ⟨rfl, fun _ => rfl⟩

/-- Only READ writes the latch, and it sets it on either side of its bound (R144, D8). -/
theorem exec_eal_iff {i : Instr} {s t : State} (h : exec i s = .next t) :
    t.eal = true ↔ s.eal = true ∨ ∃ a l, i = .read a l := by
  cases exec_dispatched h with
  | sends bytes _ hread => simp [hread]
  | sendsImage a l bytes hi => simp [hi]
  | sendsRegister hi => simp [hi]
  | fails code _ hread => simp [hread]
  | failsImage a l hi => simp [hi]
  | reboots hi => simp [hi]

/-- Settles O23: READ alone writes the latch, and it sets it. -/
theorem onlyReadSetsLatch : Obligations.OnlyReadSetsLatch := fun _ _ _ => exec_eal_iff

/-- No command releases the pin (R127, D20). -/
theorem exec_keeps_pin_asserted {i : Instr} {s t : State} (h : exec i s = .next t) (herr : s.err = true) :
    t.err = true := by
  cases exec_dispatched h with
  | sends | sendsImage | sendsRegister | reboots => exact herr
  | fails | failsImage => rfl

/-- A command that ends with the pin released has not written the register, REQUEST_ERROR's clear apart (R127). -/
theorem exec_keeps_register {i : Instr} {s t : State} (h : exec i s = .next t) (herr : t.err = false)
    (hi : i ≠ .requestError) : t.ler = s.ler := by
  cases exec_dispatched h with
  | sends | sendsImage | reboots => rfl
  | sendsRegister hrequest => exact absurd hrequest hi
  | fails | failsImage => cases herr

/-- Settles O22: the general clauses by the shapes a command can leave, the particular ones by that command's own next
state. -/
theorem successLeavesErrorState : Obligations.SuccessLeavesErrorState := by
  intro i s t h
  refine ⟨exec_keeps_pin_asserted h, exec_keeps_register h, ?_, ?_, ?_, ?_⟩
  · rintro rfl
    obtain ⟨-, rfl⟩ := exec_next h
    exact ⟨rfl, rfl⟩
  · simp only [List.mem_cons, List.not_mem_nil, or_false]
    rintro (rfl | rfl | rfl | rfl) <;> obtain ⟨-, rfl⟩ := exec_next h <;> exact ⟨rfl, rfl⟩
  · rintro a l rfl
    obtain ⟨-, rfl⟩ := exec_next h
    exact ⟨rfl, rfl⟩
  · rintro a l base rfl hbase hfits
    obtain ⟨base', hbase', ⟨hfails, -⟩ | ⟨-, -, rfl⟩⟩ := exec_next h
    · obtain rfl := Option.some.inj (hbase.symm.trans hbase')
      exact absurd hfits (Nat.not_le.2 (readFails_iff.1 hfails))
    · exact ⟨rfl, rfl⟩

/-- What a command that sends does to the elements of R121, with the register apart. -/
theorem State.armed_action (bytes : List Byte) {s : State} (hidle : s.txRem = []) :
    s.txRem = [] ∧ (s.armed bytes).txRem = bytes ∧ (s.armed bytes).txActive = decide (bytes ≠ []) ∧
      (s.armed bytes).err = s.err ∧ (s.armed bytes).mode = s.mode :=
  ⟨hidle, rfl, not_isEmpty_eq_decide bytes, rfl, rfl⟩

/-- Settles O20: the constructor's own next state is its one action, under the sourced codes and the bound of READ. -/
theorem requestSendsOrFailsOrReboots : Obligations.RequestSendsOrFailsOrReboots := by
  intro i s t hc h sends fails
  obtain ⟨hnoCommand, hillegal, hleadOut, -⟩ := Config.wf_constants hc
  have hx := exec_next h
  cases i with
  | absent n =>
    obtain rfl := hx
    exact ⟨rfl, hnoCommand, rfl, rfl, rfl⟩
  | inquiry =>
    rw [rspInq32_eq] at hx
    obtain ⟨hidle, rfl⟩ := hx
    exact ⟨State.armed_action _ hidle, rfl⟩
  | read a l =>
    obtain ⟨base, hbase, ⟨hfails, rfl⟩ | ⟨hfits, hidle, ht⟩⟩ := hx
    · refine ⟨base, hbase, ?_⟩
      rw [if_neg (Nat.not_le.2 (readFails_iff.1 hfails))]
      exact ⟨rfl, hleadOut, rfl, rfl, rfl⟩
    · rw [memRead_eq_readSlice] at ht
      obtain rfl := ht
      refine ⟨base, hbase, ?_⟩
      rw [if_pos (readFails_eq_false_iff.1 hfits)]
      exact ⟨State.armed_action (readSlice s base a l) (s := s.markEmulation) hidle, rfl⟩
  | seek a l =>
    obtain ⟨hidle, rfl⟩ := hx
    exact ⟨State.armed_action _ hidle, rfl⟩
  | requestError =>
    obtain ⟨hidle, rfl⟩ := hx
    exact ⟨State.armed_action _ hidle, rfl⟩
  | stopMotor =>
    obtain ⟨hidle, rfl⟩ := hx
    exact ⟨State.armed_action _ hidle, rfl⟩
  | audioBufferConfig =>
    obtain ⟨hidle, rfl⟩ := hx
    exact ⟨State.armed_action _ hidle, rfl⟩
  | vendorIdentity =>
    rw [rspId_eq] at hx
    obtain ⟨hidle, rfl⟩ := hx
    exact ⟨State.armed_action _ hidle, rfl⟩
  | vendorUpdate => exact hx
  | vendorOther sub =>
    obtain rfl := hx
    exact ⟨rfl, hillegal, rfl, rfl, rfl⟩
  | unknown op =>
    obtain rfl := hx
    exact ⟨rfl, hillegal, rfl, rfl, rfl⟩

/-- Settles O21: from the one action of each command, the pin released before. -/
theorem errorsRaisedCompletely : Obligations.ErrorsRaisedCompletely := by
  intro i s t hc herr h
  have haction := requestSendsOrFailsOrReboots i s t hc h
  cases i with
  | absent n =>
    obtain ⟨hpin, hcode, -⟩ := haction
    exact ⟨hpin, hcode⟩
  | inquiry =>
    obtain ⟨⟨-, -, -, hpin, -⟩, -⟩ := haction
    exact hpin.trans herr
  | read a l =>
    obtain ⟨base, hbase, hread⟩ := haction
    refine ⟨base, hbase, ?_⟩
    split at hread
    · next hfits =>
      obtain ⟨⟨-, -, -, hpin, -⟩, -⟩ := hread
      simp [hpin, herr, hfits]
    · next hpast =>
      obtain ⟨hpin, hcode, -⟩ := hread
      exact ⟨iff_of_true hpin (Nat.not_le.1 hpast), fun _ => hcode⟩
  | seek a l =>
    obtain ⟨⟨-, -, -, hpin, -⟩, -⟩ := haction
    exact hpin.trans herr
  | requestError =>
    obtain ⟨⟨-, -, -, hpin, -⟩, -⟩ := haction
    exact hpin.trans herr
  | stopMotor =>
    obtain ⟨⟨-, -, -, hpin, -⟩, -⟩ := haction
    exact hpin.trans herr
  | audioBufferConfig =>
    obtain ⟨⟨-, -, -, hpin, -⟩, -⟩ := haction
    exact hpin.trans herr
  | vendorIdentity =>
    obtain ⟨⟨-, -, -, hpin, -⟩, -⟩ := haction
    exact hpin.trans herr
  | vendorUpdate =>
    obtain rfl := haction
    exact herr
  | vendorOther sub =>
    obtain ⟨hpin, hcode, -⟩ := haction
    exact ⟨hpin, hcode⟩
  | unknown op =>
    obtain ⟨hpin, hcode, -⟩ := haction
    exact ⟨hpin, hcode⟩

/-- Settles O24: the length of the block each command arms, READ's by its masked length. -/
theorem responseLengths : Obligations.ResponseLengths := by
  intro i s t h hidle
  have hx := exec_next h
  cases i with
  | absent n =>
    obtain rfl := hx
    exact hidle
  | inquiry =>
    obtain ⟨-, rfl⟩ := hx
    exact rspInq32_length s.cfg
  | read a l =>
    obtain ⟨base, -, ⟨-, rfl⟩ | ⟨-, -, rfl⟩⟩ := hx
    · exact .inl (congrArg List.length hidle)
    · have hlength : (memRead s base (byteOffset a) (maskedLength l)).length = l.toNat - l.toNat % 32 := by
        rw [memRead_length, maskedLength_eq]
      refine .inr ⟨hlength, ?_⟩
      rw [State.armed_txRem, hlength]
      omega
  | seek a l =>
    obtain ⟨-, rfl⟩ := hx
    rfl
  | requestError =>
    obtain ⟨-, rfl⟩ := hx
    rfl
  | stopMotor =>
    obtain ⟨-, rfl⟩ := hx
    rfl
  | audioBufferConfig =>
    obtain ⟨-, rfl⟩ := hx
    rfl
  | vendorIdentity =>
    obtain ⟨-, rfl⟩ := hx
    exact rspId_length s.cfg
  | vendorUpdate =>
    obtain rfl := hx
    exact hidle
  | vendorOther sub =>
    obtain rfl := hx
    exact hidle
  | unknown op =>
    obtain rfl := hx
    exact hidle

end Sys2Proof.Machine
end

section
/-! SUPPORT. The invariants of 10_state.md R38: that each event keeps them, and that they hold at power-on. -/

namespace Sys2Proof.Machine

/-- The sense codes the register can hold are 0 and the three of R171, which a well-formed configuration carries. -/
theorem senseCodes_legal {c : Config} {code : Sense} (hc : c.wf)
    (h : code = c.senseNoCommand ∨ code = c.senseIllegal ∨ code = c.senseLeadOut) :
    code = 0 ∨ code = 0x040800 ∨ code = 0x052000 ∨ code = 0x056300 := by
  obtain ⟨hnoCommand, hillegal, hleadOut, -⟩ := Config.wf_constants hc
  rw [hnoCommand, hillegal, hleadOut] at h
  exact .inr h

/-- The invariants do not look at the host's moves, the draws, the latch or the error pin. -/
theorem State.Inv.withUnwatched {s : State} (h : s.Inv) (script : List HostEvent) (draws : Nat) (eal err : Bool) :
    State.Inv { s with script := script, draws := draws, eal := eal, err := err } :=
  { h with }

/-- Any buffer within the depth will do (R38 (c)). -/
theorem State.Inv.withRxq {s : State} (h : s.Inv) {q : List Word} (hq : q.length ≤ s.cfg.rxDepth) :
    State.Inv { s with rxq := q } :=
  { h with c := hq }

/-- Any legal code will do (R38 (h)). -/
theorem State.Inv.withLer {s : State} (h : s.Inv) {code : Sense}
    (hcode : code = 0 ∨ code = 0x040800 ∨ code = 0x052000 ∨ code = 0x056300) : State.Inv { s with ler := code } :=
  { h with h := hcode }

theorem State.Inv.turnOutgoing {s : State} (h : s.Inv) : s.turnOutgoing.Inv :=
  { h with f := fun _ => rfl, frameOpen := fun _ => by simp }

/-- A frame of whole words may be armed while the direction is drive-to-host. -/
theorem State.Inv.armed {s : State} (h : s.Inv) (hdir : s.dir = .d2h) {bytes : List Byte}
    (hlength : bytes.length % 4 = 0) : (s.armed bytes).Inv :=
  { h with
    a := by simp [State.armed]
    b := hlength
    f := fun _ => hdir }

theorem State.Inv.raiseDriveError {s : State} (h : s.Inv) {code : Sense}
    (hcode : code = s.cfg.senseNoCommand ∨ code = s.cfg.senseIllegal ∨ code = s.cfg.senseLeadOut) :
    (s.raiseDriveError code).Inv :=
  (h.withUnwatched s.script s.draws s.eal true).withLer (senseCodes_legal h.params hcode)

theorem State.Inv.markEmulation {s : State} (h : s.Inv) : s.markEmulation.Inv :=
  h.withUnwatched s.script s.draws true s.err

/-- The reboot leaves `EMU`, so that neither side of the enables is asked for (R38 (d), (e)). -/
theorem State.Inv.withUpdate {s : State} (h : s.Inv) (hm : s.mode ≠ .passthrough) :
    State.Inv { s with mode := .update } :=
  { h with
    d := fun hne => absurd rfl hne
    e := ⟨nofun, fun hside => absurd (h.e.2 hside) hm⟩
    i := nofun
    image := nofun }

/-- A command dispatched on the turned state keeps the invariants, shape by shape. -/
theorem State.Inv.exec {i : Instr} {s t : State} (h : s.Inv) (hm : s.mode ≠ .passthrough) (hdir : s.dir = .d2h)
    (hexec : exec i s = .next t) : t.Inv := by
  cases exec_dispatched hexec with
  | sends bytes hlength => exact h.armed hdir hlength
  | sendsImage a l bytes _ hlength => exact h.markEmulation.armed hdir hlength
  | sendsRegister => exact (h.armed hdir (by rw [rspErr4_length])).withLer (.inl rfl)
  | fails code hcode => exact h.raiseDriveError (hcode.imp_right .inl)
  | failsImage a l => exact h.markEmulation.raiseDriveError (.inr (.inr rfl))
  | reboots => exact h.withUpdate hm

theorem State.Inv.bufferWord {s : State} (h : s.Inv) (w : Word) : (s.bufferWord w).Inv := by
  unfold State.bufferWord
  split
  · next hroom => exact h.withRxq (by simpa using hroom)
  · exact h

theorem State.Inv.afterRequest {s : State} (h : s.Inv) : s.afterRequest.Inv := by
  rw [State.afterRequest_eq_ite]
  split
  · exact h
  · exact h.withRxq (Nat.zero_le _)

/-- Both pipelines empty and the direction host-to-drive: no frame is left to speak of. -/
theorem State.Inv.fullPipelineReset {s : State} (h : s.Inv) : s.fullPipelineReset.Inv :=
  { h with
    a := by simp
    b := rfl
    c := Nat.zero_le _
    f := fun hne => absurd rfl hne
    frameOpen := nofun }

/-- The hand-over is the right side of R38 (e), and no longer that of (d). -/
theorem State.Inv.enablePassthrough {s : State} (h : s.Inv) : s.enablePassthrough.Inv :=
  { h with
    d := fun _ => ⟨nofun, fun hside => nomatch hside.1⟩
    e := ⟨fun _ => ⟨rfl, rfl, rfl, rfl, rfl, rfl, rfl, rfl⟩, fun _ => rfl⟩
    i := nofun
    image := nofun }

/-- The clock mask and the reset sense change together (R38 (i)). -/
theorem State.Inv.withReset {s : State} (h : s.Inv) {mask : Bool} {sense : RstSense}
    (hreset : mask = true ↔ sense = .waitRelease) : State.Inv { s with clkMask := mask, rstSense := sense } :=
  { h with i := fun _ => hreset }

/-- The next word leaves the frame: whole words stay whole (R38 (b)). -/
theorem State.Inv.takeWord {s : State} (h : s.Inv) (hdir : s.dir = .d2h) (hlength : 4 ≤ s.txRem.length)
    {out : List (List Byte)} (hout : out ≠ []) :
    State.Inv { s with out := out, txRem := s.txRem.drop 4, txActive := !(s.txRem.drop 4).isEmpty } :=
  { h with
    a := by simp
    b := by
      have hwhole := h.b
      simp only [List.length_drop]
      omega
    f := fun _ => hdir
    frameOpen := fun _ => hout }

/-- Settles O44: each event is a few of the updates above. -/
theorem stepKeepsInvariant : Obligations.StepKeepsInvariant := by
  intro s t h hstep
  obtain ⟨hm, ⟨-, rfl⟩ | ⟨rest, hevent⟩⟩ := step_next hstep
  · exact h
  have hserved : State.Inv { s with script := rest } := h.withUnwatched rest s.draws s.eal s.err
  obtain hword | hout | hin | htx | hassert | hrelease | hhand | hbrk := hevent
  · obtain ⟨w, -, -, ⟨-, rfl⟩ | ⟨-, -, rfl⟩ | ⟨-, -, rfl⟩⟩ := hword
    · exact hserved.bufferWord w
    · exact (h.withUnwatched rest (s.draws + 1) s.eal s.err).bufferWord w
    · exact h.withUnwatched rest (s.draws + 1) s.eal s.err
  · obtain ⟨-, -, -, u, hu, rfl⟩ := hout
    exact (hserved.turnOutgoing.exec (by simp [hm]) rfl hu).afterRequest
  · obtain ⟨-, -, -, rfl⟩ := hin
    exact hserved.fullPipelineReset.withUnwatched rest s.draws s.eal _
  · obtain ⟨-, hd, -, hlength, front, f, -, rfl⟩ := htx
    exact hserved.takeWord hd hlength (by simp)
  · obtain ⟨-, -, -, rfl⟩ := hassert
    exact (h.withUnwatched rest s.draws s.eal false).withReset (by simp)
  · obtain ⟨-, -, -, -, rfl⟩ := hrelease
    exact hserved.fullPipelineReset.withReset (by simp)
  · obtain ⟨-, -, -, -, rfl⟩ := hhand
    exact hserved.fullPipelineReset.enablePassthrough.withReset (by simp)
  · obtain ⟨_, -, -, rfl⟩ := hbrk
    exact hserved

/-- With an image the power-on state is on the `EMU` side, without one on the `PASSTHROUGH` side (R201, R208). -/
theorem State.powerOnWith_inv {c : Config} {m : Memory} (hc : c.wf) (hmem : m.wf) (media : Media) :
    (State.powerOnWith c media m).Inv where
  params := hc
  flashCanonical := hmem
  a := by simp [State.powerOnWith]
  b := rfl
  c := Nat.zero_le _
  d _ := by cases media <;> simp [State.powerOnWith]
  e := by cases media <;> simp [State.powerOnWith]
  f hne := absurd rfl hne
  h := .inl rfl
  i _ := by simp [State.powerOnWith]
  image := by cases media <;> simp [State.powerOnWith]
  frameOpen := nofun

/-- Settles O46: the state after power-on, and the script is none of the invariants' elements. -/
theorem powerOnMeetsInvariant : Obligations.PowerOnMeetsInvariant :=
  fun c m moves hc hmem => (State.powerOnWith_inv hc hmem (resolve c m)).withUnwatched moves 0 false false

theorem Config.chip_wf : Config.chip.wf := ⟨rfl, Config.openParams.valid⟩

/-- Settles O45: reset is power-on of the chip over a flash with nothing listed. -/
theorem resetMeetsInvariant : Obligations.ResetMeetsInvariant :=
  State.powerOnWith_inv Config.chip_wf Memory.wf_nil _

end Sys2Proof.Machine
end

section
/-! SUPPORT. Each event's answer as an equation, under its guard: the converses of the handler lemmas in the file of the
shared operations (40_transport.md R90 to R103). -/

namespace Sys2Proof.Machine

/-- `E_RXWORD` with the clock running and room for the word (R90). -/
theorem onRxWord_of_room {w : Word} {s : State} (hd : s.dir = .h2d) (hk : s.clkMask = false)
    (hroom : s.rxq.length < s.cfg.rxDepth) : onRxWord w s = .next { s with rxq := s.rxq ++ [w] } := by
  simp only [onRxWord, hd, hk, Bool.false_eq_true, if_false, State.bufferWord_of_room w s hroom]

/-- `E_RXWORD` with the clock running and a full buffer (R81, D4). -/
theorem onRxWord_of_full {w : Word} {s : State} (hd : s.dir = .h2d) (hk : s.clkMask = false)
    (hfull : s.cfg.rxDepth ≤ s.rxq.length) : onRxWord w s = .next s := by
  simp only [onRxWord, hd, hk, Bool.false_eq_true, if_false, State.bufferWord_of_full w s hfull]

/-- `E_RXWORD` while the clock is masked: the draw may keep the word, and then it needs room (R110). -/
theorem onRxWord_of_masked {w : Word} {s : State} (hd : s.dir = .h2d) (hk : s.clkMask = true) :
    onRxWord w s = .next { s with draws := s.draws + 1 } ∨
      (s.rxq.length < s.cfg.rxDepth ∧ onRxWord w s = .next { s with draws := s.draws + 1, rxq := s.rxq ++ [w] }) := by
  simp only [onRxWord, hd, hk, if_true]
  split
  · by_cases hroom : s.rxq.length < s.cfg.rxDepth
    · exact .inr ⟨hroom, congrArg Host.Outcome.next (State.bufferWord_of_room w _ hroom)⟩
    · exact .inl (congrArg Host.Outcome.next (State.bufferWord_of_full w _ (Nat.not_lt.1 hroom)))
  · exact .inl rfl

/-- Settles O29: the handler's answer on either side of the clock mask, with room for the word and without. -/
theorem wordIsBufferedOrDropped : Obligations.WordIsBufferedOrDropped := by
  intro s w rest hm hd hs
  rw [step_of_script hm hs]
  exact ⟨onRxWord_of_room (s := { s with script := rest }) hd, onRxWord_of_full (s := { s with script := rest }) hd,
    onRxWord_of_masked (s := { s with script := rest }) hd⟩

/-- `E_DIR_IN` while the direction is drive-to-host (R94). -/
theorem onDirIn_of_outgoing {s : State} (hi : s.irqEnDir = true) (hd : s.dir = .d2h) :
    onDirIn s = .next { s with
      dir := .h2d, txRem := [], txActive := false, rxq := [], err := (!s.cfg.errClearOnDirIn && s.err) } := by
  rw [onDirIn, if_pos hi, hd]
  cases s.cfg.errClearOnDirIn <;> rfl

/-- Settles O30: the handler's answer. -/
theorem hostReclaimsBus : Obligations.HostReclaimsBus := by
  intro s rest hm hi hd hs
  rw [step_of_script hm hs]
  exact onDirIn_of_outgoing hi hd

/-- `E_TXWORD` with the clock running and a word left (R99). -/
theorem onTxWord_of_word {s : State} {front : List (List Byte)} {f : List Byte} (hd : s.dir = .d2h)
    (hk : s.clkMask = false) (ho : s.out = front ++ [f]) (hlength : 4 ≤ s.txRem.length) :
    onTxWord s = .next { s with
      out := front ++ [f ++ s.txRem.take 4], txRem := s.txRem.drop 4, txActive := !(s.txRem.drop 4).isEmpty } := by
  simp only [onTxWord, hd, hk, ho, appendToLast_concat, Bool.false_eq_true, if_false, Nat.not_lt.2 hlength]

/-- Settles O31: the four bytes by the handler's answer, the two stops by its guards in turn. -/
theorem hostTakesNextWord : Obligations.HostTakesNextWord := by
  intro s rest front f b0 b1 b2 b3 more hm hd hs ho
  rw [step_of_script hm hs, handle]
  refine ⟨fun hk hrem => ?_, fun hk hrem => ?_, fun hk => ?_⟩
  · have hlength : 4 ≤ s.txRem.length := by simp [hrem]
    rw [onTxWord_of_word (s := { s with script := rest }) hd hk ho hlength]
    simp only [hrem, List.take, List.drop, not_isEmpty_eq_decide]
  · simp [onTxWord, hd, hk, hrem]
  · simp [onTxWord, hd, hk]

/-- `E_RST_RELEASE` while release is watched for (R96). -/
theorem onRstRelease_of_waitRelease {s : State} (hi : s.irqEnRst = true) (hr : s.rstSense = .waitRelease) :
    onRstRelease s = .next { s.fullPipelineReset.resetEntry with clkMask := false, rstSense := .waitAssert } := by
  rw [onRstRelease, if_pos hi, hr]

/-- The release as a whole step, with the reset entry still to decide. -/
theorem step_rstRelease {s : State} {rest : List HostEvent} (hm : s.mode = .emu) (hi : s.irqEnRst = true)
    (hs : s.script = .rstRelease :: rest) (hr : s.rstSense = .waitRelease) :
    step s = .next { State.resetEntry (State.fullPipelineReset { s with script := rest }) with
      clkMask := false, rstSense := .waitAssert } :=
  (step_of_script hm hs).trans (onRstRelease_of_waitRelease (s := { s with script := rest }) hi hr)

/-- Settles O33: the handler's answer, with the reset entry at either value of the latch. -/
theorem resetReleaseClearsPipelines : Obligations.ResetReleaseClearsPipelines := by
  intro s rest hm hi hs hr
  refine ⟨fun he => ?_, fun he => ?_⟩
  · rw [step_rstRelease hm hi hs hr, State.resetEntry_of_not_eal (State.fullPipelineReset { s with script := rest }) he]
    rfl
  · rw [step_rstRelease hm hi hs hr, State.resetEntry_of_eal (State.fullPipelineReset { s with script := rest }) he]
    rfl

/-- Settles O34: the handler's answer on either edge. -/
theorem breakChangesNothing : Obligations.BreakChangesNothing := by
  intro s edge rest hm hi hs
  rw [step_of_script hm hs]
  exact if_pos hi

theorem step_passthrough {s : State} (hm : s.mode = .passthrough) : step s = .fault .passthrough := by
  rw [step, transition, hm]

theorem step_update {s : State} (hm : s.mode = .update) : step s = .fault .update := by
  rw [step, transition, hm]

theorem step_idle {s : State} (hm : s.mode = .emu) (hs : s.script = []) : step s = .next s := by
  rw [step, transition, hm, hs]

/-- Settles O35: one equation for each mode. -/
theorem idleAndFinishedSteps : Obligations.IdleAndFinishedSteps :=
  fun _ => ⟨step_idle, step_passthrough, step_update⟩

/-- Settles O36: each handler's answer where its guard fails. -/
theorem impossibleHostMovesRefused : Obligations.ImpossibleHostMovesRefused := by
  intro s rest hm
  refine ⟨fun w hs hd => ?_, fun hs hd => ?_, fun hs hd hi => ?_, fun hs hd hi => ?_, fun hs hr hi => ?_,
    fun hs hr hi => ?_⟩ <;> rw [step_of_script hm hs, handle]
  · simp only [onRxWord, hd]
  · simp only [onTxWord, hd]
  · simp only [onDirIn, hi, hd, if_true]
  · simp only [onDirOut, hi, hd, if_true]
  · simp only [onRstAssert, hi, hr, if_true]
  · simp only [onRstRelease, hi, hr, if_true]

/-- Without an image the power-on state is already handed over (R208). -/
theorem State.powerOnWith_none_enablePassthrough (c : Config) (m : Memory) :
    (State.powerOnWith c .none m).enablePassthrough = State.powerOnWith c .none m := rfl

/-- Settles O38: the hand-over by its writes, its callers by what they test, and the commands by the mode they leave. -/
theorem enablePassthroughHandsOver : Obligations.EnablePassthroughHandsOver := by
  refine ⟨fun s => rfl, fun s => rfl, State.resetEntry_of_eal, fun c m hnone => ?_, fun s => step_passthrough rfl,
    fun i s t h hp => ?_⟩
  · rw [State.powerOn, hnone, State.powerOnWith_none_enablePassthrough]
  · obtain hkept | hupdate := exec_keeps_mode_or_updates h
    · exact hkept.symm.trans hp
    · cases hupdate.symm.trans hp

/-- Settles O40: the table's two columns by what the resolver found. -/
theorem powerOnState : Obligations.PowerOnState := by
  refine ⟨fun c m hmedia => ?_, fun c m hnone => ?_, rfl, Config.chip_wf⟩
  · simp [State.powerOn, State.powerOnWith, hmedia]
  · rw [State.powerOn, hnone]
    rfl

/-- The state in the middle of a bus reset (R95). -/
def State.resetAsserted (rest : List HostEvent) (s : State) : State :=
  { s with script := rest, clkMask := true, err := false, rstSense := .waitRelease }

theorem step_rstAssert {s : State} {rest : List HostEvent} (hm : s.mode = .emu) (hi : s.irqEnRst = true)
    (hr : s.rstSense = .waitAssert) (hs : s.script = .rstAssert :: rest) : step s = .next (s.resetAsserted rest) := by
  obtain ⟨hassert, -⟩ := resetAssertMasksClock s rest hm hi hs
  exact hassert hr

/-- Settles O53: the two phases one after the other; the latch picks the release's answer. -/
theorem busResetKeepsRegisterAndLatch : Obligations.BusResetKeepsRegisterAndLatch := by
  intro s rest hm hi hr hs
  have hassert := step_rstAssert hm hi hr hs
  obtain ⟨hgoesOn, hhandsOver⟩ := resetReleaseClearsPipelines (s.resetAsserted _) rest hm hi rfl rfl
  cases he : s.eal with
  | false =>
    exact ⟨_, _, hassert, rfl, hgoesOn he, rfl, rfl, he, rfl, rfl, rfl, rfl, rfl, rfl, rfl, rfl, fun _ => hm, nofun⟩
  | true =>
    exact ⟨_, _, hassert, rfl, hhandsOver he, rfl, rfl, he, rfl, rfl, rfl, rfl, rfl, rfl, rfl, rfl, nofun,
      fun _ => ⟨rfl, step_passthrough rfl⟩⟩

end Sys2Proof.Machine
end

section
/-! SUPPORT. What a step leaves as it was, event by event, and what it does not look at (10_state.md R21, R22, R27 and
section 10). -/

namespace Sys2Proof.Machine

/-- Settles O51: each event's next state against each element; a command can write the dispatcher's elements only. -/
theorem writersOfEachElement : Obligations.WritersOfEachElement := by
  intro s t h e
  obtain ⟨-, ⟨-, rfl⟩ | ⟨rest, hevent⟩⟩ := step_next h
  · simp
  obtain hword | hout | hin | htx | hassert | hrelease | hhand | hbrk := hevent
  · obtain ⟨w, hs, -, ⟨-, rfl⟩ | ⟨-, -, rfl⟩ | ⟨-, -, rfl⟩⟩ := hword
    · simp [e, hs]
    · simp [e, hs]
    · simp [e, hs]
  · obtain ⟨hs, -, -, u, hu, rfl⟩ := hout
    obtain ⟨_, _, _, _, _, _, rfl⟩ := exec_writes_dispatcher_state hu
    simp [e, hs]
  · obtain ⟨hs, -, -, rfl⟩ := hin
    simp [e, hs]
  · obtain ⟨hs, -, -, -, -, -, -, rfl⟩ := htx
    simp [e, hs]
  · obtain ⟨hs, -, -, rfl⟩ := hassert
    simp [e, hs]
  · obtain ⟨hs, -, -, -, rfl⟩ := hrelease
    simp [e, hs]
  · obtain ⟨hs, -, -, -, rfl⟩ := hhand
    simp [e, hs]
  · obtain ⟨_, hs, -, rfl⟩ := hbrk
    simp [e, hs]

/-- A step that serves the outgoing turn is the decoded command's answer and the handler's end (R91). -/
theorem step_dirOut_next {s t : State} (h : step s = .next t) (hout : s.script.head? = some .dirOut) :
    ∃ rest u, exec (decode s.cfg s.rxq) { s with script := rest, dir := .d2h, out := s.out ++ [[]] } = .next u ∧
      t = u.afterRequest := by
  obtain ⟨rest, hs⟩ := List.head?_eq_some_iff.1 hout
  rw [step_of_script (step_next h).1 hs] at h
  obtain ⟨-, -, u, hu, ht⟩ := onDirOut_next h
  exact ⟨rest, u, hu, ht⟩

/-- Settles O52: of the events that may write the pin, a dispatch never releases it. -/
theorem errorPinReleasedOnlyBy : Obligations.ErrorPinReleasedOnlyBy := by
  intro s t h hs ht
  obtain ⟨-, -, -, -, -, -, -, herr, -⟩ := writersOfEachElement s t h
  obtain hout | hassert | hin := herr (by simp [hs, ht])
  · obtain ⟨rest, u, hu, rfl⟩ := step_dirOut_next h hout
    have hkept : u.err = true := exec_keeps_pin_asserted hu hs
    simp [hkept] at ht
  · exact .inl hassert
  · exact .inr hin

/-- Settles O49: only a dispatch writes the latch, and it sets it exactly for READ. -/
theorem latchNeverClears : Obligations.LatchNeverClears := by
  intro s t h
  obtain ⟨-, heal, -⟩ := writersOfEachElement s t h
  by_cases hout : s.script.head? = some .dirOut
  · obtain ⟨rest, u, hu, rfl⟩ := step_dirOut_next h hout
    have hlatch := exec_eal_iff hu
    rw [State.afterRequest_eal]
    exact ⟨fun he => hlatch.2 (.inl he), fun he ht => ⟨hout, (hlatch.1 ht).resolve_left (by simp [he])⟩⟩
  · have hkept : t.eal = s.eal := by_contra fun hne => hout (heal hne)
    exact ⟨hkept.trans, fun he ht => by simp [hkept, he] at ht⟩

/-! ## The register is not looked at -/

/-- An answer `r'` that differs from `r` at most in the register, which then holds `v` and in `r` is still `old`. -/
def Result.LerApart (old v : Sense) (r r' : Result) : Prop :=
  r' = r ∨ ∃ t, r = .next t ∧ t.ler = old ∧ r' = .next { t with ler := v }

/-- What a state change that does not look at the register makes of an answer. -/
theorem Result.LerApart.next {old v : Sense} (t : State) (ht : t.ler = old) :
    Result.LerApart old v (.next t) (.next { t with ler := v }) :=
  .inr ⟨t, rfl, ht, rfl⟩

theorem send_lerApart (src : Source) (bytes : List Byte) (s : State) (v : Sense) :
    Result.LerApart s.ler v (send src bytes s) (send src bytes { s with ler := v }) := by
  unfold send
  split
  · cases s.txRem with
    | nil => exact .next _ rfl
    | cons b bs => exact .inl rfl
  · exact .inl rfl

theorem sendZero4_lerApart (s : State) (v : Sense) :
    Result.LerApart s.ler v (sendZero4 s) (sendZero4 { s with ler := v }) :=
  send_lerApart _ _ s v

/-- Every command but REQUEST_ERROR: one that fails overwrites the register, the others leave it. -/
theorem exec_lerApart {i : Instr} (hi : i ≠ .requestError) (s : State) (v : Sense) :
    Result.LerApart s.ler v (exec i s) (exec i { s with ler := v }) := by
  cases i with
  | absent n => exact .inl rfl
  | inquiry => exact send_lerApart _ _ s v
  | read a l =>
    simp only [exec, execRead]
    cases imgBase s.cfg s.media with
    | none => exact .inl rfl
    | some base =>
      dsimp only
      split
      · exact .inl rfl
      · exact send_lerApart _ _ s.markEmulation v
  | seek a l => exact sendZero4_lerApart s v
  | requestError => exact absurd rfl hi
  | stopMotor => exact sendZero4_lerApart s v
  | audioBufferConfig => exact sendZero4_lerApart s v
  | vendorIdentity => exact send_lerApart _ _ s v
  | vendorUpdate => exact .next _ rfl
  | vendorOther sub => exact .inl rfl
  | unknown op => exact .inl rfl

theorem State.afterRequest_with_ler (s : State) (v : Sense) :
    State.afterRequest { s with ler := v } = { s.afterRequest with ler := v } := by
  by_cases hm : s.mode = .update
  · rw [s.afterRequest_of_update hm, State.afterRequest_of_update { s with ler := v } hm]
  · rw [s.afterRequest_of_ne_update hm, State.afterRequest_of_ne_update { s with ler := v } hm]
    rfl

theorem State.bufferWord_lerApart (w : Word) (s : State) (v : Sense) :
    Result.LerApart s.ler v (.next (s.bufferWord w)) (.next (State.bufferWord w { s with ler := v })) := by
  unfold State.bufferWord
  split
  · exact .next _ rfl
  · exact .next _ rfl

theorem onRxWord_lerApart (w : Word) (s : State) (v : Sense) :
    Result.LerApart s.ler v (onRxWord w s) (onRxWord w { s with ler := v }) := by
  simp only [onRxWord]
  split
  · exact .inl rfl
  · split
    · split
      · exact State.bufferWord_lerApart w { s with draws := s.draws + 1 } v
      · exact .next _ rfl
    · exact State.bufferWord_lerApart w s v

/-- The command's answer carries over: what it leaves of the register, the handler's end leaves too (R91). -/
theorem onDirOut_lerApart {s : State} (hi : decode s.cfg s.rxq ≠ .requestError) (v : Sense) :
    Result.LerApart s.ler v (onDirOut s) (onDirOut { s with ler := v }) := by
  have hturn : State.turnOutgoing { s with ler := v } = { s.turnOutgoing with ler := v } := rfl
  simp only [onDirOut, hturn]
  split
  · split
    · exact .inl rfl
    · obtain hsame | ⟨t, ht, hler, ht'⟩ := exec_lerApart hi s.turnOutgoing v
      · exact .inl (by rw [hsame])
      · simp only [ht, ht', State.afterRequest_with_ler]
        exact .next _ ((State.afterRequest_ler t).trans hler)
  · exact .inl rfl

theorem onDirIn_lerApart (s : State) (v : Sense) :
    Result.LerApart s.ler v (onDirIn s) (onDirIn { s with ler := v }) := by
  simp only [onDirIn]
  split
  · split
    · exact .inl rfl
    · split
      · exact .next _ rfl
      · exact .next _ rfl
  · exact .inl rfl

theorem onTxWord_lerApart (s : State) (v : Sense) :
    Result.LerApart s.ler v (onTxWord s) (onTxWord { s with ler := v }) := by
  simp only [onTxWord]
  split
  · exact .inl rfl
  · split
    · exact .inl rfl
    · split
      · exact .inl rfl
      · split
        · exact .inl rfl
        · exact .next _ rfl

theorem onRstAssert_lerApart (s : State) (v : Sense) :
    Result.LerApart s.ler v (onRstAssert s) (onRstAssert { s with ler := v }) := by
  simp only [onRstAssert]
  split
  · split
    · exact .inl rfl
    · exact .next _ rfl
  · exact .inl rfl

theorem onRstRelease_lerApart (s : State) (v : Sense) :
    Result.LerApart s.ler v (onRstRelease s) (onRstRelease { s with ler := v }) := by
  have hentry : (State.fullPipelineReset { s with ler := v }).resetEntry =
      { s.fullPipelineReset.resetEntry with ler := v } := s.fullPipelineReset.resetEntry_with_ler v
  simp only [onRstRelease]
  split
  · split
    · exact .inl rfl
    · simp only [hentry]
      exact .next _ (State.resetEntry_ler s.fullPipelineReset)
  · exact .inl rfl

theorem onBrk_lerApart (edge : Edge) (s : State) (v : Sense) :
    Result.LerApart s.ler v (onBrk edge s) (onBrk edge { s with ler := v }) := by
  simp only [onBrk]
  split
  · exact .next _ rfl
  · exact .inl rfl

theorem handle_lerApart {e : HostEvent} {s : State} (hi : ¬ (e = .dirOut ∧ decode s.cfg s.rxq = .requestError))
    (v : Sense) : Result.LerApart s.ler v (handle e s) (handle e { s with ler := v }) := by
  cases e with
  | rxWord w => exact onRxWord_lerApart w s v
  | dirOut => exact onDirOut_lerApart (fun h => hi ⟨rfl, h⟩) v
  | dirIn => exact onDirIn_lerApart s v
  | txWord => exact onTxWord_lerApart s v
  | rstAssert => exact onRstAssert_lerApart s v
  | rstRelease => exact onRstRelease_lerApart s v
  | brk edge => exact onBrk_lerApart edge s v

/-- Every step but the dispatch of REQUEST_ERROR. -/
theorem step_lerApart {s : State} (hi : ¬ (s.script.head? = some .dirOut ∧ decode s.cfg s.rxq = .requestError))
    (v : Sense) : Result.LerApart s.ler v (step s) (step { s with ler := v }) := by
  simp only [step, transition]
  split
  · exact .inl rfl
  · exact .inl rfl
  · split
    · exact .next _ rfl
    · next e rest hs =>
      rw [hs, List.head?_cons, Option.some.injEq] at hi
      exact handle_lerApart (s := { s with script := rest }) hi v

/-- Settles O50: each kind of answer, as the register apart allows it. -/
theorem registerReadOnlyByRequestError : Obligations.RegisterReadOnlyByRequestError := by
  intro s v hi
  obtain hsame | ⟨u, hu, hler, hu'⟩ := step_lerApart hi v
  · rw [hsame]
    exact ⟨fun t ht => .inl ht, fun f hf => hf, fun r hr => hr⟩
  · rw [hu, hu']
    refine ⟨?_, nofun, nofun⟩
    rintro t ⟨⟩
    exact .inr ⟨hler, rfl⟩

end Sys2Proof.Machine
end

section
/-! SUPPORT. Several steps in a row: what the invariant gives the next event, the words of a command, of a frame, and
whole transactions (40_transport.md sections 2 to 4, 60_exceptions.md section 5). -/

namespace Sys2Proof.Machine

/-! ## What the invariant gives -/

theorem State.Inv.emuSide {s : State} (h : s.Inv) (hm : s.mode = .emu) : s.emuSide :=
  (h.d (by simp [hm])).1 hm

theorem State.Inv.irqEnDir {s : State} (h : s.Inv) (hm : s.mode = .emu) : s.irqEnDir = true := by
  obtain ⟨-, -, hdir, -⟩ := h.emuSide hm
  exact hdir

theorem State.Inv.irqEnRst {s : State} (h : s.Inv) (hm : s.mode = .emu) : s.irqEnRst = true := by
  obtain ⟨hrst, -⟩ := h.emuSide hm
  exact hrst

/-- No frame is in flight while the direction is host-to-drive (R38 (f)). -/
theorem State.Inv.txRem_of_incoming {s : State} (h : s.Inv) (hd : s.dir = .h2d) : s.txRem = [] := by
  by_contra hne
  cases hd.symm.trans (h.f hne)

/-- With an image and an idle send side every command answers a next state (R98, R191). -/
theorem exec_isNext (i : Instr) {s : State} (hc : s.cfg.wf) (hmedia : s.media ≠ .none) (hidle : s.txRem = []) :
    ∃ t, exec i s = .next t := by
  cases i with
  | absent n => exact ⟨_, rfl⟩
  | inquiry => exact ⟨_, send_buffer_eq_armed (by rw [rspInq32_length]) hidle⟩
  | read a l =>
    obtain ⟨base, hbase⟩ := imgBase_isSome (c := s.cfg) hmedia
    obtain hfits | hpast := le_or_gt (a.toNat * 4 + (l.toNat - l.toNat % 32)) (s.cfg.flashEnd - base)
    · exact ⟨_, exec_read_of_fits hc hbase hidle hfits⟩
    · exact ⟨_, exec_read_of_past_end hbase hpast⟩
  | seek a l => exact ⟨_, sendZero4_of_idle hidle⟩
  | requestError => exact ⟨_, execRequestError_of_idle hidle⟩
  | stopMotor => exact ⟨_, sendZero4_of_idle hidle⟩
  | audioBufferConfig => exact ⟨_, sendZero4_of_idle hidle⟩
  | vendorIdentity => exact ⟨_, send_buffer_eq_armed (rspId_mod_four _) hidle⟩
  | vendorUpdate => exact ⟨_, rfl⟩
  | vendorOther sub => exact ⟨_, rfl⟩
  | unknown op => exact ⟨_, rfl⟩

/-- Settles O56: each handler under the guard that the invariant gives it, the outgoing turn by the command's answer. -/
theorem emulationAlwaysServesTheHost : Obligations.EmulationAlwaysServesTheHost := by
  intro s h hm
  refine ⟨fun hd rest => ?_, fun hd rest => ?_, fun hr rest => ?_, fun hr rest => ?_⟩
  · obtain ⟨t, ht⟩ := exec_isNext (decode s.cfg s.rxq)
      (s := { s with script := rest, dir := .d2h, out := s.out ++ [[]] }) h.params (h.image hm) (h.txRem_of_incoming hd)
    exact ⟨_, step_dirOut_of_exec hm (h.irqEnDir hm) hd rfl ht⟩
  · exact ⟨_, hostReclaimsBus { s with script := .dirIn :: rest } rest hm (h.irqEnDir hm) hd rfl⟩
  · exact ⟨_, step_rstAssert (s := { s with script := .rstAssert :: rest }) hm (h.irqEnRst hm) hr rfl⟩
  · exact ⟨_, step_rstRelease (s := { s with script := .rstRelease :: rest }) hm (h.irqEnRst hm) rfl hr⟩

/-! ## Words in, words out -/

/-- The words of a command that has room are captured in order (R90). -/
theorem steps_rxWords (words : List Word) {s : State} {rest : List HostEvent} (hm : s.mode = .emu) (hd : s.dir = .h2d)
    (hk : s.clkMask = false) (hs : s.script = words.map .rxWord ++ rest)
    (hroom : s.rxq.length + words.length ≤ s.cfg.rxDepth) :
    steps words.length s = .next { s with script := rest, rxq := s.rxq ++ words } := by
  induction words generalizing s with
  | nil =>
    obtain rfl : s.script = rest := by simpa using hs
    simp only [List.length_nil, steps, List.append_nil]
  | cons w words ih =>
    simp only [List.length_cons] at hroom
    have hone : s.rxq.length < s.cfg.rxDepth := by omega
    have hmore : (s.rxq ++ [w]).length + words.length ≤ s.cfg.rxDepth := by
      rw [List.length_append, List.length_singleton]
      omega
    have hstep : step s = .next { s with script := words.map .rxWord ++ rest, rxq := s.rxq ++ [w] } := by
      obtain ⟨hbuffered, -⟩ := wordIsBufferedOrDropped s w (words.map HostEvent.rxWord ++ rest) hm hd hs
      exact hbuffered hk hone
    rw [List.length_cons, steps_succ_of_step hstep,
      ih (s := { s with script := words.map .rxWord ++ rest, rxq := s.rxq ++ [w] }) hm hd hk rfl hmore,
      List.append_assoc, List.singleton_append]

/-- One word taken, as a whole step (R99). -/
theorem step_txWord {s : State} {rest : List HostEvent} {front : List (List Byte)} {f : List Byte} (hm : s.mode = .emu)
    (hd : s.dir = .d2h) (hk : s.clkMask = false) (hs : s.script = .txWord :: rest) (ho : s.out = front ++ [f])
    (hlength : 4 ≤ s.txRem.length) :
    step s = .next { s with
      script := rest, out := front ++ [f ++ s.txRem.take 4], txRem := s.txRem.drop 4,
      txActive := !(s.txRem.drop 4).isEmpty } :=
  (step_of_script hm hs).trans (onTxWord_of_word (s := { s with script := rest }) hd hk ho hlength)

/-- Settles O54: by induction on the words taken; each one moves the frame's next four bytes. -/
theorem hostReceivesFramePrefix : Obligations.HostReceivesFramePrefix := by
  intro n
  induction n with
  | zero =>
    intro s rest front f hm hd hk hactive hs ho hlength
    obtain rfl : s.script = rest := by simpa using hs
    have hactive' : decide (0 < s.txRem.length) = s.txActive := by
      rw [Bool.eq_iff_iff, hactive, decide_eq_true_iff, List.length_pos_iff]
    simp only [Nat.mul_zero, List.take_zero, List.drop_zero, List.append_nil, ← ho, hactive', steps]
  | succ n ih =>
    intro s rest front f hm hd hk hactive hs ho hlength
    have hstep := step_txWord hm hd hk (rest := List.replicate n HostEvent.txWord ++ rest) hs ho (by omega)
    have hrest : 4 * n ≤ (s.txRem.drop 4).length := by
      rw [List.length_drop]
      omega
    have htake : s.txRem.take 4 ++ (s.txRem.drop 4).take (4 * n) = s.txRem.take (4 * (n + 1)) := by
      rw [← List.take_add, Nat.mul_succ, Nat.add_comm]
    have hdrop : (s.txRem.drop 4).drop (4 * n) = s.txRem.drop (4 * (n + 1)) := by
      rw [List.drop_drop, Nat.mul_succ, Nat.add_comm]
    have hleft : decide (4 * n < (s.txRem.drop 4).length) = decide (4 * (n + 1) < s.txRem.length) := by
      rw [List.length_drop, decide_eq_decide]
      omega
    rw [steps_succ_of_step hstep, ih _ rest front (f ++ s.txRem.take 4)]
    · simp only [List.append_assoc, htake, hdrop, hleft]
    · exact hm
    · exact hd
    · exact hk
    · simp
    · rfl
    · rfl
    · exact hrest

/-! ## Whole transactions -/

/-- The three words of a command and the outgoing turn, on an incoming bus with an empty buffer: the command that was
encoded is dispatched, and its words discarded (R90, R91). -/
theorem steps_transaction {i : Instr} {s t : State} {rest : List HostEvent} (hc : s.cfg.wf) (hm : s.mode = .emu)
    (hi : s.irqEnDir = true) (hd : s.dir = .h2d) (hk : s.clkMask = false) (hq : s.rxq = [])
    (hwf : i.wf s.cfg = true) (hthree : (encode s.cfg i).length = 3)
    (hs : s.script = (encode s.cfg i).map .rxWord ++ .dirOut :: rest)
    (hexec : exec i { s with script := rest, rxq := encode s.cfg i, dir := .d2h, out := s.out ++ [[]] } = .next t)
    (ht : t.mode ≠ .update) : steps 4 s = .next { t with rxq := [] } := by
  have hdecode : decode s.cfg (encode s.cfg i) = i := decodeUndoesEncode s.cfg i hc hwf
  have hroom : s.rxq.length + (encode s.cfg i).length ≤ s.cfg.rxDepth := by
    obtain ⟨-, -, -, -, -, -, hdepth⟩ := hc
    rw [hq, hthree]
    exact hdepth
  have hwords : steps 3 s = .next { s with script := .dirOut :: rest, rxq := encode s.cfg i } := by
    rw [← hthree, steps_rxWords _ hm hd hk hs hroom, hq, List.nil_append]
  have hturn : step { s with script := .dirOut :: rest, rxq := encode s.cfg i } = .next t.afterRequest :=
    step_dirOut_of_exec hm hi hd rfl ((congrArg (exec · _) hdecode).trans hexec)
  calc
    steps 4 s = steps 1 { s with script := .dirOut :: rest, rxq := encode s.cfg i } :=
      steps_add_of_steps (n := 1) hwords
    _ = .next t.afterRequest := by rw [steps_succ_of_step hturn, steps]
    _ = .next { t with rxq := [] } := by rw [State.afterRequest_eq_ite, if_neg ht]

/-- The state after the host took the bus back (R94). -/
def State.reclaimed (rest : List HostEvent) (s : State) : State :=
  { s with
    script := rest, dir := .h2d, txRem := [], txActive := false, rxq := [],
    err := (!s.cfg.errClearOnDirIn && s.err) }

theorem step_dirIn {s : State} {rest : List HostEvent} (hm : s.mode = .emu) (hi : s.irqEnDir = true)
    (hd : s.dir = .d2h) (hs : s.script = .dirIn :: rest) : step s = .next (s.reclaimed rest) :=
  hostReclaimsBus s rest hm hi hd hs

/-- The state after the host took an outgoing bus back and sent REQUEST_ERROR: the register is ready to be taken, and
cleared (R152). -/
def State.registerPending (rest : List HostEvent) (s : State) : State :=
  { s with
    script := rest, dir := .d2h, rxq := [], txRem := rspErr4 s.ler, txActive := true, ler := 0, out := s.out ++ [[]],
    err := (!s.cfg.errClearOnDirIn && s.err) }

theorem steps_requestError {s : State} {rest : List HostEvent} (hc : s.cfg.wf) (hm : s.mode = .emu)
    (hi : s.irqEnDir = true) (hd : s.dir = .d2h) (hk : s.clkMask = false)
    (hs : s.script = .dirIn :: ((encode s.cfg .requestError).map .rxWord ++ .dirOut :: rest)) :
    steps 5 s = .next (s.registerPending rest) := by
  rw [steps_succ_of_step (step_dirIn hm hi hd hs)]
  exact steps_transaction (i := .requestError) (s := s.reclaimed _) hc hm hi rfl hk rfl rfl rfl rfl
    (execRequestError_of_idle rfl) (by simp [State.reclaimed, hm])

/-- The turn whose command fails leaves the bus outgoing and the moves after it (R91). -/
theorem step_asserts_pin_leaves {s t : State} (h : step s = .next t) (hs : s.err = false) (ht : t.err = true) :
    t.dir = .d2h ∧ s.script = .dirOut :: t.script := by
  obtain ⟨-, rest, u, hscript, hu, -, rfl⟩ := step_asserts_pin h hs ht
  obtain ⟨_, _, _, _, _, _, rfl⟩ := exec_writes_dispatcher_state hu
  simp [hscript]

/-- Once cleared, the register reports no error (R152). -/
theorem rspErr4_zero : rspErr4 0 = [0, 0, 0, 0] := by decide

/-- Settles O25: the failing turn leaves the bus outgoing and the code in the register, and each REQUEST_ERROR takes
what the one before it left. -/
theorem requestErrorDrains : Obligations.RequestErrorDrains := by
  intro s t rest h hd hk herr hs hstep ht
  obtain ⟨-, -, hevent⟩ := driveErrorEntry
  obtain ⟨-, -, hmode, hclock, -⟩ := hevent s t hstep herr ht
  obtain ⟨hdir, hscript⟩ := step_asserts_pin_leaves hstep herr ht
  have hm : t.mode = .emu := hmode.trans (step_next hstep).1
  have hinv : t.Inv := stepKeepsInvariant s t h hstep
  have hcfg : t.cfg = s.cfg := (step_sameImage hstep).cfg
  rw [hs, ← hcfg, List.cons.injEq] at hscript
  obtain ⟨-, hmoves⟩ := hscript
  have hfirst := steps_requestError hinv.params hm (hinv.irqEnDir hm) hdir (hclock.trans hk) hmoves.symm
  have hsecond := steps_requestError (rest := rest)
    (s := t.registerPending (.dirIn :: ((encode t.cfg .requestError).map .rxWord ++ .dirOut :: rest)))
    hinv.params hm (hinv.irqEnDir hm) rfl (hclock.trans hk) rfl
  exact ⟨_, _, hfirst, rfl, rfl, hsecond, rfl, rspErr4_zero⟩

/-- A frame's first words taken and the bus turned back, from a state with the frame in flight: what was taken stays in
`OUT`, the rest is discarded (R94, R99). -/
theorem steps_take_and_reclaim {n : Nat} {s : State} {rest : List HostEvent} {front : List (List Byte)} {f : List Byte}
    (hm : s.mode = .emu) (hi : s.irqEnDir = true) (hd : s.dir = .d2h) (hk : s.clkMask = false)
    (hactive : s.txActive = true ↔ s.txRem ≠ []) (hs : s.script = List.replicate n .txWord ++ .dirIn :: rest)
    (ho : s.out = front ++ [f]) (hlength : 4 * n ≤ s.txRem.length) :
    steps (n + 1) s = .next (State.reclaimed rest { s with out := front ++ [f ++ s.txRem.take (4 * n)] }) := by
  rw [steps_add_of_steps (hostReceivesFramePrefix n s _ front f hm hd hk hactive hs ho hlength),
    steps_succ_of_step (step_dirIn (rest := rest) ?_ ?_ ?_ ?_)]
  · rfl
  · exact hm
  · exact hi
  · exact hd
  · rfl

/-- The state after the host sent a READ in bounds: the latch is set and the slice is in flight (R140). -/
def State.slicePending (bytes : List Byte) (rest : List HostEvent) (s : State) : State :=
  { s.markEmulation.armed bytes with script := rest, dir := .d2h, rxq := [], out := s.out ++ [[]] }

theorem steps_read {s : State} {rest : List HostEvent} {a l : BitVec 32} {base : Nat} (h : s.Inv) (hidle : s.Idle)
    (hbase : imgBase s.cfg s.media = some base)
    (hfits : a.toNat * 4 + (l.toNat - l.toNat % 32) ≤ s.cfg.flashEnd - base)
    (hs : s.script = (encode s.cfg (.read a l)).map .rxWord ++ .dirOut :: rest) :
    steps 4 s = .next (s.slicePending (readSlice s base a l) rest) := by
  obtain ⟨hm, hd, hq, hframe, hk⟩ := hidle
  exact steps_transaction h.params hm (h.irqEnDir hm) hd hk hq rfl rfl hs
    (exec_read_of_fits h.params hbase hframe hfits) (by simp [hm])

/-- The first bytes of a READ's range are the range's first bytes. -/
theorem readSlice_take {s : State} {base n : Nat} {a l : BitVec 32} (hn : n ≤ l.toNat - l.toNat % 32) :
    (readSlice s base a l).take n = (List.range n).map fun k => s.flash.read (base + a.toNat * 4 + k) := by
  rw [readSlice, ← List.map_take, List.take_range, Nat.min_eq_left hn]

/-- Settles O55: the command's transaction arms the slice, whose first words the host takes before it turns the
bus back. -/
theorem readTransactionDeliversSlice : Obligations.ReadTransactionDeliversSlice := by
  intro s a l n base rest h hidle hbase hfits hn hs
  have hread := steps_read h hidle hbase hfits hs
  obtain ⟨hm, hd, hq, hframe, hk⟩ := hidle
  have htake := steps_take_and_reclaim (n := n) (rest := rest)
    (s := s.slicePending (readSlice s base a l) (List.replicate n .txWord ++ .dirIn :: rest)) (front := s.out) (f := [])
    hm (h.irqEnDir hm) rfl hk (by simp [State.slicePending, State.armed]) rfl rfl
    (hn.trans_eq (readSlice_length s base a l).symm)
  have hrun := (steps_add_of_steps hread).trans htake
  rw [← Nat.add_assoc, Nat.add_comm 4 n] at hrun
  refine ⟨_, hrun, ⟨hm, rfl, rfl, rfl, hk⟩, rfl, ?_, rfl, rfl, fun herr => ?_⟩
  · exact congrArg (fun taken => s.out ++ [taken]) (readSlice_take hn)
  · simp [State.reclaimed, State.slicePending, herr]

end Sys2Proof.Machine
end

section
/-! SUPPORT. The second step of the Media Resolver: the header's fields as bytes of the flash, and each of the checks
(a) to (g) as what it lets through (70_reset_and_hazards.md R204 to R206). -/

namespace Sys2Proof.Machine

/-- With the magic out of the way the resolver answers by the header alone (R204, R206). -/
theorem resolve_eq_wrapped_iff {c : Config} {m : Memory} (h : resolve c m ≠ .raw) :
    resolve c m = .wrapped ↔ (dolHeader c m).rejected c = false := by
  have hmagic : ¬ hasDiscMagic c m = true := fun hm => h ((resolve_eq_raw_iff c m).2 hm)
  rw [resolve, if_neg hmagic]
  cases (dolHeader c m).rejected c <;> simp

/-- The payload is accepted exactly if all seven checks let it through (R204). -/
theorem DolHeader.rejected_eq_false_iff (c : Config) (h : DolHeader) :
    h.rejected c = false ↔
      h.entryMisaligned = false ∧ h.entryOutsideWindow c = false ∧ h.segmentOutsideWindow c = false ∧
        h.entryOutsideText = false ∧ h.bssBelowWindow c = false ∧ h.tooSmall c = false ∧ h.pastFlashEnd c = false := by
  simp only [DolHeader.rejected, Bool.or_eq_false_iff, and_assoc]

/-- A header field in its own bytes, big-endian by the sourced constants (GK3). -/
theorem dolField_eq {c : Config} (hc : c.wf) (m : Memory) (i : Nat) :
    dolField c m i =
      (m.read (c.payloadAddr + i)).toNat * 2 ^ 24 + (m.read (c.payloadAddr + (i + 1))).toNat * 2 ^ 16 +
        (m.read (c.payloadAddr + (i + 2))).toNat * 2 ^ 8 + (m.read (c.payloadAddr + (i + 3))).toNat := by
  have horder : c.dolOrder = .big := congrArg Constants.dolOrder hc.1
  rw [dolField, horder]
  exact be32_toNat ..

/-- The window of R204 under the sourced constants (P9). -/
theorem inDolWindow_iff {c : Config} (hc : c.wf) (x : Nat) :
    inDolWindow c x = true ↔ 0x80000000 ≤ x ∧ x < 0x81200000 := by
  have hlo : c.dolWinLo = 0x80000000 := congrArg Constants.dolWinLo hc.1
  have hhi : c.dolWinHi = 0x81200000 := congrArg Constants.dolWinHi hc.1
  simp [inDolWindow, hlo, hhi]

theorem DolHeader.size_le_iff (h : DolHeader) (n : Nat) : h.size ≤ n ↔ ∀ g ∈ h.segments, g.off + g.siz ≤ n := by
  unfold DolHeader.size
  induction h.segments with
  | nil => simp
  | cons g gs ih => simp [ih]

/-- The total size reaches `n` in some segment; with no segment at all only 0 is reached. -/
theorem DolHeader.le_size_iff {h : DolHeader} (hne : h.segments ≠ []) (n : Nat) :
    n ≤ h.size ↔ ∃ g ∈ h.segments, n ≤ g.off + g.siz := by
  cases n with
  | zero =>
    obtain ⟨g, hg⟩ := List.exists_mem_of_ne_nil _ hne
    exact iff_of_true (Nat.zero_le _) ⟨g, hg, Nat.zero_le _⟩
  | succ n =>
    rw [Nat.succ_le_iff, ← not_le, h.size_le_iff]
    push Not
    rfl

/-! ### What each check lets through, of the header in the flash -/

/-- The header's segments are the 18 of R204, in order. -/
theorem dolHeader_segments (c : Config) (m : Memory) :
    (dolHeader c m).segments = (List.range 18).map (dolSegment c m) := rfl

theorem entryMisaligned_eq_false_iff (c : Config) (m : Memory) :
    (dolHeader c m).entryMisaligned = false ↔ dolField c m 0xE0 % 4 = 0 := by
  simp [DolHeader.entryMisaligned, dolHeader]

theorem entryOutsideWindow_eq_false_iff {c : Config} (hc : c.wf) (m : Memory) :
    (dolHeader c m).entryOutsideWindow c = false ↔
      0x80000000 ≤ dolField c m 0xE0 ∧ dolField c m 0xE0 < 0x81200000 := by
  rw [DolHeader.entryOutsideWindow, Bool.not_eq_false', inDolWindow_iff hc]
  rfl

theorem segmentOutsideWindow_eq_false_iff {c : Config} (hc : c.wf) (m : Memory) :
    (dolHeader c m).segmentOutsideWindow c = false ↔
      ∀ k < 18, dolField c m (0x48 + 4 * k) ≠ 0 →
        0x80000000 ≤ dolField c m (0x48 + 4 * k) ∧ dolField c m (0x48 + 4 * k) < 0x81200000 := by
  simp [DolHeader.segmentOutsideWindow, dolHeader_segments, dolSegment, ← inDolWindow_iff hc]

theorem entryOutsideText_eq_false_iff (c : Config) (m : Memory) :
    (dolHeader c m).entryOutsideText = false ↔
      ∃ k < 7, dolField c m (0x48 + 4 * k) ≤ dolField c m 0xE0 ∧
        dolField c m 0xE0 < dolField c m (0x48 + 4 * k) + dolField c m (0x90 + 4 * k) := by
  have htext (h : DolHeader) :
      h.entryOutsideText = false ↔ ∃ g ∈ h.segments.take 7, g.adr ≤ h.entry ∧ h.entry < g.adr + g.siz := by
    simp [DolHeader.entryOutsideText]
  rw [htext, dolHeader_segments, ← List.map_take, List.take_range]
  simp [dolHeader, dolSegment]

theorem bssBelowWindow_eq_false_iff {c : Config} (hc : c.wf) (m : Memory) :
    (dolHeader c m).bssBelowWindow c = false ↔ dolField c m 0xD8 = 0 ∨ 0x80000000 ≤ dolField c m 0xD8 := by
  have hlo : c.dolWinLo = 0x80000000 := congrArg Constants.dolWinLo hc.1
  simp [DolHeader.bssBelowWindow, dolHeader, hlo, or_iff_not_imp_left]

theorem tooSmall_eq_false_iff (c : Config) (m : Memory) :
    (dolHeader c m).tooSmall c = false ↔
      ∃ k < 18, c.dolMinSize ≤ dolField c m (4 * k) + dolField c m (0x90 + 4 * k) := by
  rw [DolHeader.tooSmall, decide_eq_false_iff_not, not_lt, DolHeader.le_size_iff (by simp [dolHeader_segments])]
  simp [dolHeader_segments, dolSegment]

/-- The payload itself lies inside the flash, so the image's end alone is asked for (P2). -/
theorem pastFlashEnd_eq_false_iff {c : Config} (hc : c.wf) (m : Memory) :
    (dolHeader c m).pastFlashEnd c = false ↔
      ∀ k < 18, c.payloadAddr + (dolField c m (4 * k) + dolField c m (0x90 + 4 * k)) ≤ c.flashEnd := by
  obtain ⟨-, -, -, -, hpayload, -⟩ := hc
  rw [DolHeader.pastFlashEnd, decide_eq_false_iff_not, not_lt, ← Nat.le_sub_iff_add_le' hpayload,
    DolHeader.size_le_iff]
  simp [dolHeader_segments, dolSegment, Nat.le_sub_iff_add_le' hpayload]

/-- Settles O42: the resolver accepts by the seven checks, each in the header's fields, and the fields in their bytes. -/
theorem validExecutableSelectsWrappedImage : Obligations.ValidExecutableSelectsWrappedImage := by
  intro c m hc hraw field off adr siz window
  rw [resolve_eq_wrapped_iff hraw, DolHeader.rejected_eq_false_iff, entryMisaligned_eq_false_iff,
    entryOutsideWindow_eq_false_iff hc, segmentOutsideWindow_eq_false_iff hc, entryOutsideText_eq_false_iff,
    bssBelowWindow_eq_false_iff hc, tooSmall_eq_false_iff, pastFlashEnd_eq_false_iff hc]
  simp only [dolField_eq hc]
  rfl

end Sys2Proof.Machine
end
